-- ==== Sys2Proof/Word.lean ====
section
/-! DEFINITION. The bit-vector types the spec's notation names (00_scope.md R9, R10). -/

namespace Sys2Proof

/-- R9: "A byte is 8 bits". -/
abbrev Byte := BitVec 8

/-- R9: "a word 32 bits"; `+` on words is addition modulo 2^32. -/
abbrev Word := BitVec 32

/-- R173, R174: the 4-bit values of the q-permutation's tables. -/
abbrev Nibble := BitVec 4

end Sys2Proof
end

