-- ==== Sys2Proof/Config.lean ====
section
/-! DEFINITION. What is fixed for this hardware (00_scope.md R7, R35, R36) and the open parameters of R8 that
the model takes as constants without a value. -/

namespace Sys2Proof.Config

/-- R35: ID "always reads 0x42465446". -/
def idValue : Word := 0x42465446

/-- R36: VERSION "always reads 0x00010000". -/
def versionValue : Word := 0x00010000

/-- R7, R32: WINDOW_BYTES. -/
def windowBytes : Nat := 4096

/-- R7: BF_BLOCK, in bytes. -/
abbrev bfBlock : Nat := 8

/-- R7: TF_BLOCK, in bytes. -/
abbrev tfBlock : Nat := 16

/-- R7: BF_KEY_MIN, in bytes. -/
def bfKeyMin : Nat := 4

/-- R7: BF_KEY_MAX, in bytes. -/
def bfKeyMax : Nat := 56

/-- R7: TF_KEY_MIN, in bytes. -/
def tfKeyMin : Nat := 16

/-- R7: TF_KEY_LENGTHS, in bytes. -/
def tfKeyLengths : List Nat := [16, 24, 32]

/-- R7: ROUNDS, for both ciphers. -/
def rounds : Nat := 16

/-- R8: BASE, the "physical base address of the register window on the host bus": a free value (log 5). -/
opaque base : Nat

/-- R8: IRQ_ID, "the platform interrupt number the IRQ output is wired to": a free value (log 5). -/
opaque irqId : Nat

/-- R8: BUS_ACCESS_POLICY, "which bus masters may reach the window": a free value for every master but the one
that R12 calls the host (log 5). -/
opaque busAccessPolicy : Nat → Bool

end Sys2Proof.Config
end

