-- ==== Sys2Proof/Machine/Bytes.lean ====
section
/-! DEFINITION. Bytes, words and byte sequences (00_scope.md R9, R10; the lane mapping of 20_memory.md R72). -/

namespace Sys2Proof.Machine

/-- R10: `BE32(b0,b1,b2,b3) = b0<<24 | b1<<16 | b2<<8 | b3`. -/
def be32 (b0 b1 b2 b3 : Byte) : Word := b0 ++ b1 ++ b2 ++ b3

/-- R10: `LE32(b0,b1,b2,b3) = b0 | b1<<8 | b2<<16 | b3<<24`. -/
def le32 (b0 b1 b2 b3 : Byte) : Word := b3 ++ b2 ++ b1 ++ b0

/-- R171: byte j of a word x is `x[8j+7:8j]`. -/
def byteOf (x : Word) (j : Nat) : Byte := x.extractLsb' (8 * j) 8

/-- R10: BE_BYTES, the inverse of BE32. -/
def beBytes (x : Word) : Vector Byte 4 := #v[byteOf x 3, byteOf x 2, byteOf x 1, byteOf x 0]

/-- R10: LE_BYTES, the inverse of LE32. -/
def leBytes (x : Word) : Vector Byte 4 := #v[byteOf x 0, byteOf x 1, byteOf x 2, byteOf x 3]

/-- A sequence of n bytes 0x00. -/
def zeroBytes (n : Nat) : Vector Byte n := Vector.replicate n 0

/-- The first n bytes of a buffer: `B[0..n-1]`. -/
def takeBytes {m : Nat} (n : Nat) (h : n ≤ m) (b : Vector Byte m) : Vector Byte n :=
  Vector.ofFn fun i => b[i.val]'(Nat.lt_of_lt_of_le i.isLt h)

/-- `b[0..n-1] <- y`, the other bytes of b kept. -/
def overlayBytes {m n : Nat} (y : Vector Byte n) (b : Vector Byte m) : Vector Byte m :=
  Vector.ofFn fun i => if h : i.val < n then y[i.val]'h else b[i.val]

/-- R234: byte-wise XOR. -/
def xorBytes {n : Nat} (x y : Vector Byte n) : Vector Byte n := Vector.zipWith (· ^^^ ·) x y

/-- R72: the word that register n of a buffer carries, byte 4n + j in bits [8j+7:8j]. -/
def readLane {m : Nat} (b : Vector Byte m) (n : Nat) : Word :=
  le32 (b.getD (4 * n) 0) (b.getD (4 * n + 1) 0) (b.getD (4 * n + 2) 0) (b.getD (4 * n + 3) 0)

/-- R48: `B[4n + j] <- v[8j+7:8j]` for j = 0..3. -/
def writeLane {m : Nat} (b : Vector Byte m) (n : Nat) (v : Word) : Vector Byte m :=
  Vector.ofFn fun i => if i.val / 4 = n then byteOf v (i.val % 4) else b[i.val]

end Sys2Proof.Machine
end

