-- ==== Sys2Proof/Syntax.lean ====
section
/-! DEFINITION. The command set: one constructor per row of spec/opcode_table.json (30_encoding.md R100-R106,
R110). -/

namespace Sys2Proof

/-- R103: the direction of a session. -/
inductive Dir where
  /-- DIR = 0. -/
  | enc
  /-- DIR = 1. -/
  | dec
  deriving DecidableEq, Repr

/-- R104: the mode of operation of a session. -/
inductive Mode where
  /-- MODE = 0, "blocks are processed independently". -/
  | ecb
  /-- MODE = 1, the chained mode. -/
  | cbc
  deriving DecidableEq, Repr

/-- R101, R107: a command with its fields. A field the spec calls an unsigned integer is a `Nat` (its width is
checked by `Instr.wf`); ALG stays a number because its values 2 and 3 are encodable and name no algorithm
(R102). -/
inductive Instr where
  /-- R225. -/
  | nop
  /-- R226: ALG, DIR, MODE, KEYLEN. -/
  | keysched (alg : Nat) (dir : Dir) (mode : Mode) (keylen : Nat)
  /-- R230. -/
  | block
  /-- R261: NBYTES. -/
  | final (nbytes : Nat)
  /-- R237. -/
  | zeroize
  deriving DecidableEq, Repr

end Sys2Proof
end

