-- ==== Sys2Proof/Machine/State.lean ====
section
/-! DEFINITION. The state of the engine, exactly the elements of 10_state.md R30, and beside it what reaches the
engine from outside: the events still to come and the port's answers so far. -/

namespace Sys2Proof.Machine

/-- R55: the values S_ALG takes. S_ALG has 2 bits and is written only by a successful KEYSCHED, so it never
holds 2 or 3 (log 11). -/
inductive Alg where
  /-- S_ALG = 0. -/
  | blowfish
  /-- S_ALG = 1. -/
  | twofish
  deriving DecidableEq, Repr

/-- R53: the Blowfish schedule, 18 + 4 x 256 words. -/
structure BFSchedule where
  p : Vector Word 18
  s : Vector (Vector Word 256) 4
  deriving DecidableEq, Repr

/-- R54: the Twofish schedule: 40 subkeys, the S-box key words, and the key length in 64-bit units (0 when no
Twofish session is open). -/
structure TFSchedule where
  k : Vector Word 40
  sk : Vector Word 4
  tk : Nat
  deriving DecidableEq, Repr

/-- R222: a zeroized Blowfish schedule. -/
def BFSchedule.zero : BFSchedule := ⟨Vector.replicate 18 0, Vector.replicate 4 (Vector.replicate 256 0)⟩

/-- R222: a zeroized Twofish schedule. -/
def TFSchedule.zero : TFSchedule := ⟨Vector.replicate 40 0, Vector.replicate 4 0, 0⟩

/-- R12, R84: the bus masters. `host` is a master that reaches the window; whether another one does is the
platform's BUS_ACCESS_POLICY (log 5). -/
inductive Master where
  | host
  | other (n : Nat)
  deriving DecidableEq, Repr

/-- R11: MemRead or MemWrite, the latter with its value. The engine looks at the value of a 4-byte write only. -/
inductive AccessKind where
  | read
  | write (v : Word)
  deriving DecidableEq, Repr

/-- R11, R71: one host access of `size` bytes at bus address `addr`. -/
structure BusAccess where
  master : Master
  addr : Nat
  size : Nat
  kind : AccessKind
  deriving DecidableEq, Repr

/-- R12, R293, R320: what can happen next, in the order it happens (log 1). -/
inductive Event where
  /-- A host access is performed at the port (R81). -/
  | access (a : BusAccess)
  /-- The command in progress, if there is one, completes (R224). -/
  | completion
  /-- The reset input is asserted (R320). -/
  | resetPulse
  deriving DecidableEq, Repr

/-- What an access gets back from the port. -/
inductive Reply where
  /-- R77: an admitted read returns the register's value. -/
  | data (v : Word)
  /-- R76: an admitted write was performed (also where the rules ignore or drop its value: R33, R34, R288;
  log 7). -/
  | written
  /-- R74: the bus error response of a refused access, which the spec makes a fault of the host agent (log 3). -/
  | busError
  /-- R71, R294: the access does not reach this engine (log 4). -/
  | notReached
  deriving DecidableEq, Repr

/-- Why a step can stop with a fault: never. The spec reports every error in STATUS (R280) or to the accessing
host (R74), and the machine goes on. -/
inductive Fault where
  deriving DecidableEq, Repr

/-- Why a step can be refused. -/
inductive Refusal where
  /-- Raised by an arm of `exec` whose instruction has no meaning yet; safe. No arm raises it. -/
  | notModelled (mnemonic : String)
  deriving DecidableEq, Repr

/-- R30: "The engine's state is exactly the following, and nothing else persists between commands". ID, VERSION
and the constant stores (R35, R36, R56) are fixed and are definitions of the model. `agenda` and `replies` are
the model's own: the outside of the engine. -/
structure State where
  /-- CTRL.IE_DONE (R37). -/
  ieDone : Bool
  /-- CTRL.IE_ERR (R37). -/
  ieErr : Bool
  /-- STATUS.BUSY (R39); also the sequencer's state (R31). -/
  busy : Bool
  /-- STATUS.DONE (R40). -/
  done : Bool
  /-- STATUS.ERRF (R41). -/
  errf : Bool
  /-- STATUS.OVR (R42). -/
  ovr : Bool
  /-- STATUS.SESS_VALID (R43). -/
  sessValid : Bool
  /-- STATUS.ERR (R44, R281). -/
  err : BitVec 4
  /-- STATUS.DETAIL (R44, R282). -/
  detail : BitVec 8
  /-- LCMD, the latched command word (R45). -/
  lcmd : Word
  /-- S_ALG (R55). -/
  sAlg : Alg
  /-- S_DIR (R55). -/
  sDir : Dir
  /-- S_MODE (R55). -/
  sMode : Mode
  /-- RESULT.NOUT (R47). -/
  nout : BitVec 5
  /-- KEYBUF[0..55] (R48). -/
  keybuf : Vector Byte 56
  /-- IVBUF[0..15] (R49). -/
  ivbuf : Vector Byte 16
  /-- DINBUF[0..15] (R50). -/
  dinbuf : Vector Byte 16
  /-- CV[0..15] (R51). -/
  cv : Vector Byte 16
  /-- DOUTBUF[0..15] (R52). -/
  doutbuf : Vector Byte 16
  /-- P and S (R53). -/
  bf : BFSchedule
  /-- K, SK and TK (R54). -/
  tf : TFSchedule
  /-- The model's own: the events still to come, oldest first (log 1). -/
  agenda : List Event
  /-- The model's own: the port's answers so far, newest first (log 3). -/
  replies : List (Master × Reply)
  deriving DecidableEq, Repr

/-- R58, R320: the machine right after reset. P, S, K and SK are unspecified there and unobservable; "A model
may hold them at any value, including 0" (log 2). Nothing has happened at the port yet (log 1, log 3). -/
def State.reset : State where
  ieDone := false
  ieErr := false
  busy := false
  done := false
  errf := false
  ovr := false
  sessValid := false
  err := 0
  detail := 0
  lcmd := 0
  sAlg := .blowfish
  sDir := .enc
  sMode := .ecb
  nout := 0
  keybuf := Vector.replicate 56 0
  ivbuf := Vector.replicate 16 0
  dinbuf := Vector.replicate 16 0
  cv := Vector.replicate 16 0
  doutbuf := Vector.replicate 16 0
  bf := .zero
  tf := .zero
  agenda := []
  replies := []

end Sys2Proof.Machine
end

