-- ==== Sys2Proof/Machine/Blowfish.lean ====
section
/-! DEFINITION. The Blowfish unit (40_blowfish.md R130-R143). -/

namespace Sys2Proof.Machine

/-- P[i] of a schedule. -/
def bfP (sch : BFSchedule) (i : Nat) : Word := sch.p.getD i 0

/-- S[b][x] of a schedule, b one of the four boxes and x a byte. -/
def bfS (sch : BFSchedule) (b : Fin 4) (x : Byte) : Word := sch.s[b][x.toNat]'x.isLt

/-- R132: `F(x) = ((S[0][b0] + S[1][b1]) ^ S[2][b2]) + S[3][b3]`, b0 the most significant byte of x. -/
def bfF (sch : BFSchedule) (x : Word) : Word :=
  ((bfS sch 0 (byteOf x 3) + bfS sch 1 (byteOf x 2)) ^^^ bfS sch 2 (byteOf x 1)) + bfS sch 3 (byteOf x 0)

/-- R133: one round with the permutation entry P[i]: `L <- L ^ P[i]`, `R <- R ^ F(L)`, then the halves swap. -/
def bfRound (sch : BFSchedule) (lr : Word × Word) (i : Nat) : Word × Word :=
  let l := lr.1 ^^^ bfP sch i
  let r := lr.2 ^^^ bfF sch l
  (r, l)

/-- R133, R134: rounds with the entries `is` in turn, the last swap undone, then `R ^ P[a]` and `L ^ P[b]`. -/
def bfNetwork (sch : BFSchedule) (is : List Nat) (a b : Nat) (lr : Word × Word) : Word × Word :=
  let w := is.foldl (bfRound sch) lr
  (w.2 ^^^ bfP sch b, w.1 ^^^ bfP sch a)

/-- R133: BF_EncHalves, entries 0..15, then `R ^ P[16]` and `L ^ P[17]`. -/
def bfEncHalves (sch : BFSchedule) (lr : Word × Word) : Word × Word :=
  bfNetwork sch (List.range Config.rounds) 16 17 lr

/-- R134: BF_DecHalves, entries 17 down to 2, then `R ^ P[1]` and `L ^ P[0]`. -/
def bfDecHalves (sch : BFSchedule) (lr : Word × Word) : Word × Word :=
  bfNetwork sch ((List.range Config.rounds).map (17 - ·)) 1 0 lr

/-- R131: the two big-endian halves of an 8-byte block (R7: BF_BLOCK). -/
def bfHalves (b : Vector Byte 8) : Word × Word :=
  (be32 b[0] b[1] b[2] b[3], be32 b[4] b[5] b[6] b[7])

/-- R131: `BE_BYTES(L) || BE_BYTES(R)`. -/
def bfBytes (lr : Word × Word) : Vector Byte 8 :=
  #v[byteOf lr.1 3, byteOf lr.1 2, byteOf lr.1 1, byteOf lr.1 0,
    byteOf lr.2 3, byteOf lr.2 2, byteOf lr.2 1, byteOf lr.2 0]

/-- R135: BF_EncryptBlock. -/
@[irreducible] def bfEncryptBlock (sch : BFSchedule) (b : Vector Byte 8) : Vector Byte 8 :=
  bfBytes (bfEncHalves sch (bfHalves b))

/-- R136: BF_DecryptBlock. -/
@[irreducible] def bfDecryptBlock (sch : BFSchedule) (b : Vector Byte 8) : Vector Byte 8 :=
  bfBytes (bfDecHalves sch (bfHalves b))

/-- R137: schedule step 1, from the digits of pi. -/
@[irreducible] def bfInitial : BFSchedule where
  p := Vector.ofFn fun i => piWord i.val
  s := Vector.ofFn fun b => Vector.ofFn fun j => piWord (18 + 256 * b.val + j.val)

/-- R138: byte j of the key KB repeated without end. -/
def cyclicKeyByte (kb : List Byte) (j : Nat) : Byte := kb.getD (j % kb.length) 0

/-- R138: "the big-endian word of key bytes 4i..4i+3 of the key repeated to 72 bytes". -/
def bfKeyWord (kb : List Byte) (i : Nat) : Word :=
  be32 (cyclicKeyByte kb (4 * i)) (cyclicKeyByte kb (4 * i + 1)) (cyclicKeyByte kb (4 * i + 2))
    (cyclicKeyByte kb (4 * i + 3))

/-- R138: schedule step 2, the key XORed into P. -/
def bfXorKey (kb : List Byte) (sch : BFSchedule) : BFSchedule :=
  { sch with p := Vector.ofFn fun i => sch.p[i] ^^^ bfKeyWord kb i.val }

/-- The schedule with `P[i] <- L ; P[i+1] <- R`. -/
def bfSetP (sch : BFSchedule) (i : Nat) (lr : Word × Word) : BFSchedule :=
  { sch with p := (sch.p.setIfInBounds i lr.1).setIfInBounds (i + 1) lr.2 }

/-- The schedule with `S[b][j] <- L ; S[b][j+1] <- R`. -/
def bfSetS (sch : BFSchedule) (b : Fin 4) (j : Nat) (lr : Word × Word) : BFSchedule :=
  { sch with s := sch.s.set b ((sch.s[b].setIfInBounds j lr.1).setIfInBounds (j + 1) lr.2) }

/-- R139: one encryption of the fill of P: the previous output is encrypted "with P and S as they stand now" and
replaces P[2i] and P[2i+1]. -/
def bfFillP (c : (Word × Word) × BFSchedule) (i : Nat) : (Word × Word) × BFSchedule :=
  let lr := bfEncHalves c.2 c.1
  (lr, bfSetP c.2 (2 * i) lr)

/-- R139: one encryption of the fill of S[b], which replaces S[b][2j] and S[b][2j+1]. -/
def bfFillS (b : Fin 4) (c : (Word × Word) × BFSchedule) (j : Nat) : (Word × Word) × BFSchedule :=
  let lr := bfEncHalves c.2 c.1
  (lr, bfSetS c.2 b (2 * j) lr)

/-- R139: all 128 encryptions of the fill of S[b]. -/
def bfFillBox (c : (Word × Word) × BFSchedule) (b : Fin 4) : (Word × Word) × BFSchedule :=
  (List.range 128).foldl (bfFillS b) c

/-- R139: schedule step 3, 9 + 512 encryptions chained from the all-zero block. -/
@[irreducible] def bfFill (sch : BFSchedule) : BFSchedule :=
  ([0, 1, 2, 3].foldl bfFillBox ((List.range 9).foldl bfFillP ((0, 0), sch))).2

/-- R140: BF_DeriveSchedule, R137 to R139 in order. -/
@[irreducible] def bfDeriveSchedule (kb : List Byte) : BFSchedule := bfFill (bfXorKey kb bfInitial)

end Sys2Proof.Machine
end

