-- ==== Sys2Proof/Machine/Operands.lean ====
section
/-! DEFINITION. The operands of the commands beyond the word's fields: the session's block size, the key bytes,
the input block, and the padded final block (10_state.md R48, R50, R55; 44_padding.md R260, R264). -/

namespace Sys2Proof.Machine

/-- R226: "if ALG = 0 ... else": the algorithm of an ALG field that names one. -/
def algOf : Nat → Alg
  | 0 => .blowfish
  | _ => .twofish

/-- R46, R102: the two bits of S_ALG. -/
def algBits : Alg → BitVec 2
  | .blowfish => 0
  | .twofish => 1

/-- R55: "The session block size bs is 8 when S_ALG = 0 and 16 when S_ALG = 1". -/
abbrev blockSize : Alg → Nat
  | .blowfish => Config.bfBlock
  | .twofish => Config.tfBlock

/-- A block size is at most the 16 bytes of a data buffer. -/
theorem blockSize_le (a : Alg) : blockSize a ≤ 16 := by cases a <;> decide

/-- A block has a last byte. -/
theorem blockSize_pos (a : Alg) : 0 < blockSize a := by cases a <;> decide

/-- A block of the algorithm a: bs bytes. -/
abbrev Block (a : Alg) := Vector Byte (blockSize a)

/-- R228: the key, KEYBUF[0..KEYLEN-1]. -/
def keyBytes (s : State) (keylen : Nat) : List Byte := s.keybuf.toList.take keylen

/-- R50: the input block, DINBUF[0..bs-1]. -/
def inputBlock (a : Alg) (s : State) : Block a := takeBytes (blockSize a) (blockSize_le a) s.dinbuf

/-- R260: `PAD(X, n) = X[0..n-1] || p repeated p times`, p = bs - n. -/
def padBlock (a : Alg) (n : Nat) (x : Block a) : Block a :=
  Vector.ofFn fun i => if i.val < n then x[i] else BitVec.ofNat 8 (blockSize a - n)

/-- R263: p, the last byte of a decrypted final block. -/
def padCount (a : Alg) (y : Block a) : Nat :=
  (y[blockSize a - 1]'(Nat.sub_lt (blockSize_pos a) Nat.one_pos)).toNat

/-- R264: padvalid(Y): `1 <= p <= bs` and every byte from position bs - p on is p. -/
def padValid (a : Alg) (y : Block a) : Bool :=
  let p := padCount a y
  decide (1 ≤ p) && decide (p ≤ blockSize a)
    && decide (∀ i : Fin (blockSize a), blockSize a - p ≤ i.val → (y[i]).toNat = p)

/-- R263: DOUTBUF of a valid decrypt FINAL: the message bytes Y[0..n-1], then zeros. -/
def messagePart (a : Alg) (n : Nat) (y : Block a) : Vector Byte 16 :=
  Vector.ofFn fun i => if h : i.val < blockSize a then (if i.val < n then y[i.val]'h else 0) else 0

end Sys2Proof.Machine
end

