-- ==== Sys2Proof/Machine/Twofish.lean ====
section
/-! DEFINITION. The Twofish unit (42_twofish.md R170-R189). -/

namespace Sys2Proof.Machine

/-- R172: v(x) = x^8 + x^6 + x^5 + x^3 + 1, the polynomial of the MDS matrix. -/
def mdsPoly : BitVec 9 := 0x169

/-- R172: w(x) = x^8 + x^6 + x^3 + x^2 + 1, the polynomial of the RS matrix. -/
def rsPoly : BitVec 9 := 0x14D

/-- R172: `a << 1`, reduced: a held in 9 bits. -/
def gfDouble (poly a : BitVec 9) : BitVec 9 :=
  let d := a <<< 1
  if d.getLsbD 8 then d ^^^ poly else d

/-- R172: the loop of gfmul, at most `n` more turns. Eight turns are enough for a byte b: after eight, b is 0. -/
def gfMulLoop (poly : BitVec 9) : Nat → BitVec 9 → Byte → Byte → Byte
  | 0, _, _, r => r
  | n + 1, a, b, r =>
      if b = 0 then r
      else gfMulLoop poly n (gfDouble poly a) (b >>> 1) (if b.getLsbD 0 then r ^^^ a.setWidth 8 else r)

/-- R172: multiplication in GF(2^8). -/
def gfMul (a b : Byte) (poly : BitVec 9) : Byte := gfMulLoop poly 8 (a.setWidth 9) b 0

/-- R173: one 4-bit table of a q-permutation. -/
abbrev NibbleTable := Vector Nibble 16

/-- R173: q0 t0..t3. -/
def q0Tables : Vector NibbleTable 4 :=
  #v[#v[0x8, 0x1, 0x7, 0xD, 0x6, 0xF, 0x3, 0x2, 0x0, 0xB, 0x5, 0x9, 0xE, 0xC, 0xA, 0x4],
     #v[0xE, 0xC, 0xB, 0x8, 0x1, 0x2, 0x3, 0x5, 0xF, 0x4, 0xA, 0x6, 0x7, 0x0, 0x9, 0xD],
     #v[0xB, 0xA, 0x5, 0xE, 0x6, 0xD, 0x9, 0x0, 0xC, 0x8, 0xF, 0x3, 0x2, 0x4, 0x7, 0x1],
     #v[0xD, 0x7, 0xF, 0x4, 0x1, 0x2, 0x6, 0xE, 0x9, 0xB, 0x3, 0x0, 0x8, 0x5, 0xC, 0xA]]

/-- R173: q1 t0..t3. -/
def q1Tables : Vector NibbleTable 4 :=
  #v[#v[0x2, 0x8, 0xB, 0xD, 0xF, 0x7, 0x6, 0xE, 0x3, 0x1, 0x9, 0x4, 0x0, 0xA, 0xC, 0x5],
     #v[0x1, 0xE, 0x2, 0xB, 0x4, 0xC, 0x3, 0x7, 0x6, 0xD, 0xA, 0x5, 0xF, 0x9, 0x0, 0x8],
     #v[0x4, 0xC, 0x7, 0x5, 0x1, 0x6, 0x9, 0xA, 0x0, 0xE, 0xD, 0x8, 0x2, 0xB, 0x3, 0xF],
     #v[0xB, 0x9, 0x5, 0x1, 0xC, 0x3, 0xD, 0xE, 0x6, 0x4, 0x7, 0xF, 0x2, 0x0, 0x8, 0xA]]

/-- Entry x of a 4-bit table. -/
def nibbleAt (t : NibbleTable) (x : Nibble) : Nibble := t[x.toNat]'x.isLt

/-- R174: half a stage of q: from (a, b) to `a ^ b` and `a ^ ROR4(b, 1) ^ ((8 * a) & 0xF)`. -/
def qMix (a b : Nibble) : Nibble × Nibble := (a ^^^ b, a ^^^ b.rotateRight 1 ^^^ 8 * a)

/-- R174: q(t, x). -/
def qPerm (t : Vector NibbleTable 4) (x : Byte) : Byte :=
  let ab1 := qMix (x.extractLsb' 4 4) (x.extractLsb' 0 4)
  let a2 := nibbleAt t[0] ab1.1
  let b2 := nibbleAt t[1] ab1.2
  let ab3 := qMix a2 b2
  let a4 := nibbleAt t[2] ab3.1
  let b4 := nibbleAt t[3] ab3.2
  b4 ++ a4

/-- R174: q0. -/
def q0 (x : Byte) : Byte := qPerm q0Tables x

/-- R174: q1. -/
def q1 (x : Byte) : Byte := qPerm q1Tables x

/-- R177: the MDS matrix, row by row. -/
def mdsRows : Vector (List Byte) 4 :=
  #v[[0x01, 0xEF, 0x5B, 0x5B],
     [0x5B, 0xEF, 0xEF, 0x01],
     [0xEF, 0x5B, 0x01, 0xEF],
     [0xEF, 0x01, 0xEF, 0x5B]]

/-- R178: the RS matrix, row by row. -/
def rsRows : Vector (List Byte) 4 :=
  #v[[0x01, 0xA4, 0x55, 0x87, 0x5A, 0x58, 0xDB, 0x9E],
     [0xA4, 0x56, 0x82, 0xF3, 0x1E, 0xC6, 0x68, 0xE5],
     [0x02, 0xA1, 0xFC, 0xC1, 0x47, 0xAE, 0x3D, 0x19],
     [0xA4, 0x55, 0x87, 0x5A, 0x58, 0xDB, 0x9E, 0x03]]

/-- R177, R178: one row times a byte vector, the XOR over j of gfmul(row[j], y[j]). -/
def gfDot (poly : BitVec 9) (row ys : List Byte) : Byte :=
  (List.zipWith (fun m y => gfMul m y poly) row ys).foldl (· ^^^ ·) 0

/-- R177, R178: a matrix of four rows times a byte vector, as LE32 of the four results. -/
def matMul (poly : BitVec 9) (rows : Vector (List Byte) 4) (ys : List Byte) : Word :=
  le32 (gfDot poly rows[0] ys) (gfDot poly rows[1] ys) (gfDot poly rows[2] ys) (gfDot poly rows[3] ys)

/-- R177: MDSMUL. -/
def mdsMul (y0 y1 y2 y3 : Byte) : Word := matMul mdsPoly mdsRows [y0, y1, y2, y3]

/-- R178: RSMUL of an 8-byte vector. -/
def rsMul (m : List Byte) : Word := matMul rsPoly rsRows m

/-- R179: the four bytes of a word, y_0 first. -/
abbrev Quad := Byte × Byte × Byte × Byte

/-- R179: y_j = X[8j+7:8j]. -/
def quadOf (x : Word) : Quad := (byteOf x 0, byteOf x 1, byteOf x 2, byteOf x 3)

/-- R179: one stage of h: each byte through its permutation, then XOR with the bytes of a list word. -/
def hStage (f0 f1 f2 f3 : Byte → Byte) (l : Word) (y : Quad) : Quad :=
  (f0 y.1 ^^^ byteOf l 0, f1 y.2.1 ^^^ byteOf l 1, f2 y.2.2.1 ^^^ byteOf l 2, f3 y.2.2.2 ^^^ byteOf l 3)

/-- R179: h(X, L, k), the list L by its words L_0, L_1, ... -/
def hFun (x : Word) (l : List Word) (k : Nat) : Word :=
  let y := quadOf x
  let y := if k = 4 then hStage q1 q0 q0 q1 (l.getD 3 0) y else y
  let y := if 3 ≤ k then hStage q1 q1 q0 q0 (l.getD 2 0) y else y
  let y := hStage q0 q1 q0 q1 (l.getD 1 0) y
  let y := hStage q0 q0 q1 q1 (l.getD 0 0) y
  mdsMul (q1 y.1) (q0 y.2.1) (q1 y.2.2.1) (q0 y.2.2.2)

/-- R171: M_i = LE32(KB[4i..4i+3]). -/
def tfKeyWord (kb : List Byte) (i : Nat) : Word :=
  le32 (kb.getD (4 * i) 0) (kb.getD (4 * i + 1) 0) (kb.getD (4 * i + 2) 0) (kb.getD (4 * i + 3) 0)

/-- R180: Me = (M_0, M_2, ..., M_{2k-2}). -/
def tfMe (kb : List Byte) (k : Nat) : List Word := (List.range k).map fun i => tfKeyWord kb (2 * i)

/-- R180: Mo = (M_1, M_3, ..., M_{2k-1}). -/
def tfMo (kb : List Byte) (k : Nat) : List Word := (List.range k).map fun i => tfKeyWord kb (2 * i + 1)

/-- R181: the S-box key word of key bytes 8i..8i+7. -/
def tfSboxKeyWord (kb : List Byte) (i : Nat) : Word :=
  rsMul ((List.range 8).map fun c => kb.getD (8 * i + c) 0)

/-- R181: SLIST = (SK[k-1], SK[k-2], ..., SK[0]). -/
def tfSList (sch : TFSchedule) : List Word := (sch.sk.toList.take sch.tk).reverse

/-- R182: g(X) = h(X, SLIST, TK). -/
def tfG (sch : TFSchedule) (x : Word) : Word := hFun x (tfSList sch) sch.tk

/-- R183: rho. -/
def tfRho : Word := 0x01010101

/-- R183: A of the subkey pair i. -/
def tfA (kb : List Byte) (k i : Nat) : Word := hFun (BitVec.ofNat 32 (2 * i) * tfRho) (tfMe kb k) k

/-- R183: B of the subkey pair i. -/
def tfB (kb : List Byte) (k i : Nat) : Word :=
  (hFun (BitVec.ofNat 32 (2 * i + 1) * tfRho) (tfMo kb k) k).rotateLeft 8

/-- R183: subkey j: `K[2i] <- A + B`, `K[2i+1] <- ROL(A + 2*B, 9)`. -/
def tfSubkey (kb : List Byte) (k j : Nat) : Word :=
  let a := tfA kb k (j / 2)
  let b := tfB kb k (j / 2)
  if j % 2 = 0 then a + b else (a + 2 * b).rotateLeft 9

/-- R184: TF_DeriveSchedule. -/
@[irreducible] def tfDeriveSchedule (kb : List Byte) : TFSchedule :=
  let tk := kb.length / 8
  { k := Vector.ofFn fun j => tfSubkey kb tk j.val
    sk := Vector.ofFn fun i => if i.val < tk then tfSboxKeyWord kb i.val else 0
    tk := tk }

/-- K[i] of a schedule. -/
def tfK (sch : TFSchedule) (i : Nat) : Word := sch.k.getD i 0

/-- R185: the round function TF_F of round r, forward in both directions. -/
def tfF (sch : TFSchedule) (r0 r1 : Word) (r : Nat) : Word × Word :=
  let t0 := tfG sch r0
  let t1 := tfG sch (r1.rotateLeft 8)
  (t0 + t1 + tfK sch (2 * r + 8), t0 + 2 * t1 + tfK sch (2 * r + 9))

/-- The four words R[0], R[1], R[2], R[3] of a block in process. -/
abbrev TFWords := Word × Word × Word × Word

/-- R186: one encryption round, swap included. -/
def tfEncRound (sch : TFSchedule) (w : TFWords) (r : Nat) : TFWords :=
  let f := tfF sch w.1 w.2.1 r
  ((w.2.2.1 ^^^ f.1).rotateRight 1, w.2.2.2.rotateLeft 1 ^^^ f.2, w.1, w.2.1)

/-- R187: one decryption round: F forward, the XORs, rotations and the swap inverted. -/
def tfDecRound (sch : TFSchedule) (w : TFWords) (r : Nat) : TFWords :=
  let f := tfF sch w.2.2.1 w.2.2.2 r
  (w.2.2.1, w.2.2.2, w.1.rotateLeft 1 ^^^ f.1, (w.2.1 ^^^ f.2).rotateRight 1)

/-- R171: the four little-endian words of a 16-byte block (R7: TF_BLOCK). -/
def tfWords (b : Vector Byte 16) : TFWords :=
  (le32 b[0] b[1] b[2] b[3], le32 b[4] b[5] b[6] b[7], le32 b[8] b[9] b[10] b[11], le32 b[12] b[13] b[14] b[15])

/-- R171: the bytes of four words. -/
def tfBytes (w : TFWords) : Vector Byte 16 :=
  #v[byteOf w.1 0, byteOf w.1 1, byteOf w.1 2, byteOf w.1 3,
    byteOf w.2.1 0, byteOf w.2.1 1, byteOf w.2.1 2, byteOf w.2.1 3,
    byteOf w.2.2.1 0, byteOf w.2.2.1 1, byteOf w.2.2.1 2, byteOf w.2.2.1 3,
    byteOf w.2.2.2 0, byteOf w.2.2.2 1, byteOf w.2.2.2 2, byteOf w.2.2.2 3]

/-- R186, R187: whitening, word i XOR K[i + a]. -/
def tfWhiten (sch : TFSchedule) (a : Nat) (w : TFWords) : TFWords :=
  (w.1 ^^^ tfK sch a, w.2.1 ^^^ tfK sch (a + 1), w.2.2.1 ^^^ tfK sch (a + 2), w.2.2.2 ^^^ tfK sch (a + 3))

/-- R186, R187: the exchange of the pairs that undoes the last swap, word i from word (i + 2) mod 4. -/
def tfSwap (w : TFWords) : TFWords := (w.2.2.1, w.2.2.2, w.1, w.2.1)

/-- R186: TF_EncryptBlock. -/
@[irreducible] def tfEncryptBlock (sch : TFSchedule) (b : Vector Byte 16) : Vector Byte 16 :=
  tfBytes (tfWhiten sch 4 (tfSwap ((List.range Config.rounds).foldl (tfEncRound sch) (tfWhiten sch 0 (tfWords b)))))

/-- R187: TF_DecryptBlock, rounds 15 down to 0. -/
@[irreducible] def tfDecryptBlock (sch : TFSchedule) (b : Vector Byte 16) : Vector Byte 16 :=
  tfBytes (tfWhiten sch 0
    ((List.range Config.rounds).reverse.foldl (tfDecRound sch) (tfSwap (tfWhiten sch 4 (tfWords b)))))

end Sys2Proof.Machine
end

