-- ==== Sys2Proof/Machine/Modes.lean ====
section
/-! DEFINITION. The mode driver's block step (43_mode_driver.md R231-R236). -/

namespace Sys2Proof.Machine

/-- R231: E(X), the session's block encryption. -/
def encryptWith (bf : BFSchedule) (tf : TFSchedule) : (a : Alg) → Block a → Block a
  | .blowfish => bfEncryptBlock bf
  | .twofish => tfEncryptBlock tf

/-- R231: D(X), the session's block decryption. -/
def decryptWith (bf : BFSchedule) (tf : TFSchedule) : (a : Alg) → Block a → Block a
  | .blowfish => bfDecryptBlock bf
  | .twofish => tfDecryptBlock tf

/-- R232 to R235: modeblock(X) over the block functions `e` and `d`, and the chaining value c: the output block
and the new chaining value (ECB keeps it). -/
def chain {n : Nat} (e d : Vector Byte n → Vector Byte n) (mode : Mode) (dir : Dir) (c x : Vector Byte n) :
    Vector Byte n × Vector Byte n :=
  match mode, dir with
  | .ecb, .enc => (e x, c)
  | .ecb, .dec => (d x, c)
  | .cbc, .enc => (e (xorBytes x c), e (xorBytes x c))
  | .cbc, .dec => (xorBytes (d x) c, x)

/-- R51: the part of CV a session uses, CV[0..bs-1]. -/
def chainingValue (a : Alg) (s : State) : Block a := takeBytes (blockSize a) (blockSize_le a) s.cv

/-- R232 to R235 in a session of the algorithm a: modeblock(X) with the state's schedule, mode, direction and
chaining value. -/
def modeBlock (a : Alg) (s : State) (x : Block a) : Block a × Block a :=
  chain (encryptWith s.bf s.tf a) (decryptWith s.bf s.tf a) s.sMode s.sDir (chainingValue a s) x

/-- R234, R235: `CV[0..bs-1] <- c`. -/
def setChaining (a : Alg) (c : Block a) (s : State) : State := { s with cv := overlayBytes c s.cv }

/-- R236: `DOUTBUF[0..bs-1] <- Y ; DOUTBUF[bs..15] <- 0x00`. -/
def setOutput (a : Alg) (y : Block a) (s : State) : State := { s with doutbuf := overlayBytes y (zeroBytes 16) }

end Sys2Proof.Machine
end

