-- ==== Sys2Proof/WellFormed.lean ====
section
/-! DEFINITION. Which terms of `Instr` are commands: every field fits its bits (30_encoding.md R100, R107). -/

namespace Sys2Proof

/-- R100: ALG has 2 bits, KEYLEN 6 and NBYTES 4. -/
def Instr.wf : Instr → Bool
  | .nop => true
  | .keysched alg _ _ keylen => decide (alg < 4) && decide (keylen < 64)
  | .block => true
  | .final nbytes => decide (nbytes < 16)
  | .zeroize => true

end Sys2Proof
end

