-- ==== Sys2Proof/Decode.lean ====
section
/-! DEFINITION. Decoding of the latched command word (30_encoding.md R107-R112), the encoder of R110, and the
table-word entry point the host asks for. -/

namespace Sys2Proof

/-- R109, R111: the two ways a word is no command. -/
inductive DecodeError where
  /-- EncryptionFailed with DETAIL = BAD_OPCODE: OP in 0x5..0xF. -/
  | badOpcode
  /-- EncryptionFailed with DETAIL = BAD_FIELD: a must-be-zero bit of R108 is set. -/
  | badField
  deriving DecidableEq, Repr

/-- R107: OP = w[3:0]. -/
def opField (w : Word) : Nat := (w.extractLsb' 0 4).toNat

/-- R107: ALG = w[5:4]. -/
def algField (w : Word) : Nat := (w.extractLsb' 4 2).toNat

/-- R107: DIR = w[6]; R103. -/
def dirField (w : Word) : Dir := if w.getLsbD 6 then .dec else .enc

/-- R107: MODE = w[7]; R104. -/
def modeField (w : Word) : Mode := if w.getLsbD 7 then .cbc else .ecb

/-- R107: KEYLEN = w[13:8]. -/
def keylenField (w : Word) : Nat := (w.extractLsb' 8 6).toNat

/-- R107: NBYTES = w[19:16]. -/
def nbytesField (w : Word) : Nat := (w.extractLsb' 16 4).toNat

/-- R108: the must-be-zero mask per OP (asked only of a defined OP). -/
def mbzMask : Nat → Word
  | 0 => 0xFFFFFFF0
  | 1 => 0xFFFFC000
  | 2 => 0xFFFFFFF0
  | 3 => 0xFFF0FFF0
  | _ => 0xFFFFFFF0

/-- R109: OP first, then the must-be-zero bits, then the dispatch with R107's fields. Total: every word
dispatches or is rejected by name. -/
def decode (w : Word) : Except DecodeError Instr :=
  if 5 ≤ opField w then .error .badOpcode
  else if w &&& mbzMask (opField w) ≠ 0 then .error .badField
  else match opField w with
    | 0 => .ok .nop
    | 1 => .ok (.keysched (algField w) (dirField w) (modeField w) (keylenField w))
    | 2 => .ok .block
    | 3 => .ok (.final (nbytesField w))
    | _ => .ok .zeroize

/-- R103: the DIR bit. -/
def dirBit : Dir → BitVec 1
  | .enc => 0
  | .dec => 1

/-- R104: the MODE bit. -/
def modeBit : Mode → BitVec 1
  | .ecb => 0
  | .cbc => 1

/-- R110: the word of a command: `0x00000001 | ALG<<4 | DIR<<6 | MODE<<7 | KEYLEN<<8`, `0x00000003 | NBYTES<<16`,
and the three words without operands. -/
def encode : Instr → Word
  | .nop => 0x00000000
  | .keysched alg dir mode keylen =>
      0x00000001#32 ||| (BitVec.ofNat 32 alg <<< 4) ||| ((dirBit dir).setWidth 32 <<< 6)
        ||| ((modeBit mode).setWidth 32 <<< 7) ||| (BitVec.ofNat 32 keylen <<< 8)
  | .block => 0x00000002
  | .final nbytes => 0x00000003#32 ||| (BitVec.ofNat 32 nbytes <<< 16)
  | .zeroize => 0x00000004

/-- The command word that a row's `nbits` bits `w` stand for: every bit from `nbits` up is 0 (R100: one 32-bit
word, no other length). -/
def tableWord (nbits w : Nat) : Word := BitVec.ofNat 32 (w % 2 ^ nbits)

/-- What the decoder reads from a table word; none where it rejects the word. -/
def decodeTableWord (nbits w : Nat) : Option Instr :=
  match decode (tableWord nbits w) with
  | .ok i => some i
  | .error _ => none

end Sys2Proof
end

