-- ==== Sys2Proof/Machine/Ops.lean ====
section
/-! DEFINITION. The shared operations of the command sequencer: session close (43_mode_driver.md R222), the two
completions (60_exceptions.md R285, R286), command acceptance (R223), and reset (70_reset_and_hazards.md R320). -/

namespace Sys2Proof.Machine

/-- What one step or one command answers. -/
abbrev Answer := Host.Outcome State Fault Refusal

/-- R281, R282: the errors a command can raise, each with its own code and detail. InvalidEncoding (6) is never
produced and is none of them. -/
inductive CmdError where
  | invalidKeyLength
  | keyTooShort
  | unknownAlgorithm
  | invalidBlockSize
  | invalidPadding
  | badOpcode
  | badField
  | noSession
  deriving DecidableEq, Repr

/-- R281: STATUS.ERR of an error. -/
def errCode : CmdError → BitVec 4
  | .invalidKeyLength => 1
  | .keyTooShort => 2
  | .unknownAlgorithm => 3
  | .invalidBlockSize => 4
  | .invalidPadding => 5
  | .badOpcode => 7
  | .badField => 7
  | .noSession => 7

/-- R282: STATUS.DETAIL of an error. -/
def errDetail : CmdError → BitVec 8
  | .invalidKeyLength => 0
  | .keyTooShort => 0
  | .unknownAlgorithm => 0
  | .invalidBlockSize => 0
  | .invalidPadding => 0
  | .badOpcode => 1
  | .badField => 2
  | .noSession => 3

/-- R109: the error that a decoding failure raises. -/
def decodeFault : DecodeError → CmdError
  | .badOpcode => .badOpcode
  | .badField => .badField

/-- R222: close_session(). -/
def closeSession (s : State) : State :=
  { s with
    bf := .zero
    tf := .zero
    cv := zeroBytes 16
    dinbuf := zeroBytes 16
    sAlg := .blowfish
    sDir := .enc
    sMode := .ecb
    sessValid := false }

/-- `if SESS_VALID = 1 then close_session()` (R226, R237, R286). -/
def closeIfOpen (s : State) : State := if s.sessValid then closeSession s else s

/-- R285: complete(nout), the successful completion. -/
def complete (nout : Nat) (s : State) : State :=
  { s with nout := BitVec.ofNat 5 nout, err := 0, detail := 0, busy := false, done := true }

/-- R286: error_completion(E, d), the engine's trap entry. There is no handler, no saved program counter and no
mode to change (R280), and no return from it (R291). -/
def errorCompletion (e : CmdError) (s : State) : State :=
  { closeIfOpen s with
    doutbuf := zeroBytes 16
    nout := 0
    err := errCode e
    detail := errDetail e
    errf := true
    busy := false
    done := true }

/-- R11, R286: `raise`: the command ends with the error completion, which is a next state. -/
def raise (e : CmdError) (s : State) : Answer := .next (errorCompletion e s)

/-- R223: what an accepted CMD write of v does: `LCMD <- v ; BUSY <- 1 ; DONE <- 0`. -/
def latchCommand (v : Word) (s : State) : State := { s with lcmd := v, busy := true, done := false }

/-- R31, R85: the word the engine step performs is the one latched at acceptance; nothing else is fetched. -/
def fetchCommand (s : State) : Word := s.lcmd

/-- R320, R322: reset sets every state element of the engine to R58's value and abandons a command in progress.
What the outside still has to do and what it has been answered are not the engine's (log 14). -/
def resetEngine (s : State) : State := { State.reset with agenda := s.agenda, replies := s.replies }

end Sys2Proof.Machine
end

