-- ==== Sys2Proof/Machine/BlockCommands.lean ====
section
/-! DEFINITION. The commands BLOCK (43_mode_driver.md R230) and FINAL (44_padding.md R261-R266). -/

namespace Sys2Proof.Machine

/-- R230: BLOCK. -/
def execBlock (s : State) : Answer :=
  if s.sessValid then
    let yc := modeBlock s.sAlg s (inputBlock s.sAlg s)
    .next (complete (blockSize s.sAlg) (setOutput s.sAlg yc.1 (setChaining s.sAlg yc.2 s)))
  else raise .noSession s

/-- R262: FINAL in an encrypt session: the padded block is encrypted and the session closes. -/
def finalEncrypt (n : Nat) (s : State) : Answer :=
  if blockSize s.sAlg ≤ n then raise .invalidBlockSize s
  else
    let yc := modeBlock s.sAlg s (padBlock s.sAlg n (inputBlock s.sAlg s))
    .next (complete (blockSize s.sAlg) (closeSession (setOutput s.sAlg yc.1 (setChaining s.sAlg yc.2 s))))

/-- R263: FINAL in a decrypt session: the block is decrypted, its pad checked and removed, and the session
closes. -/
def finalDecrypt (n : Nat) (s : State) : Answer :=
  if n ≠ 0 then raise .badField s
  else
    let yc := modeBlock s.sAlg s (inputBlock s.sAlg s)
    let t := setChaining s.sAlg yc.2 s
    if padValid s.sAlg yc.1 then
      let nout := blockSize s.sAlg - padCount s.sAlg yc.1
      .next (complete nout (closeSession { t with doutbuf := messagePart s.sAlg nout yc.1 }))
    else raise .invalidPadding t

/-- R261: FINAL. -/
def execFinal (n : Nat) (s : State) : Answer :=
  if s.sessValid then
    match s.sDir with
    | .enc => finalEncrypt n s
    | .dec => finalDecrypt n s
  else raise .noSession s

end Sys2Proof.Machine
end

