-- ==== Sys2Proof/Machine/Control.lean ====
section
/-! DEFINITION. The commands NOP and ZEROIZE (43_mode_driver.md R225, R237). -/

namespace Sys2Proof.Machine

/-- R225: NOP is `complete(0)` and nothing else. -/
def execNop (s : State) : Answer := .next (complete 0 s)

/-- R237: every buffer 0x00. -/
def clearBuffers (s : State) : State :=
  { s with
    keybuf := zeroBytes 56
    ivbuf := zeroBytes 16
    dinbuf := zeroBytes 16
    doutbuf := zeroBytes 16
    cv := zeroBytes 16 }

/-- R237: ZEROIZE closes an open session, clears every buffer, and completes. -/
def execZeroize (s : State) : Answer := .next (complete 0 (clearBuffers (closeIfOpen s)))

end Sys2Proof.Machine
end

