-- ==== Sys2Proof/Machine/KeySchedule.lean ====
section
/-! DEFINITION. The command KEYSCHED (43_mode_driver.md R226-R229). -/

namespace Sys2Proof.Machine

/-- R227: keypolicy(ALG, KEYLEN): the error of an illegal key length, none for a legal one. -/
def keyPolicy (a : Alg) (keylen : Nat) : Option CmdError :=
  match a with
  | .blowfish =>
      if keylen < Config.bfKeyMin then some .keyTooShort
      else if Config.bfKeyMax < keylen then some .invalidKeyLength
      else none
  | .twofish =>
      if keylen < Config.tfKeyMin then some .keyTooShort
      else if keylen ∈ Config.tfKeyLengths then none
      else some .invalidKeyLength

/-- R226, R284: the checks of KEYSCHED in order: the algorithm, then the key-length policy. -/
def keyschedError (alg keylen : Nat) : Option CmdError :=
  if 2 ≤ alg then some .unknownAlgorithm else keyPolicy (algOf alg) keylen

/-- R226: what every KEYSCHED does before its checks: the key is consumed, an open session is closed, DOUT is
zeroed. -/
def keyschedEntry (s : State) : State :=
  { closeIfOpen { s with keybuf := zeroBytes 56 } with doutbuf := zeroBytes 16 }

/-- R140, R184: the derivation of the algorithm's schedule; the other unit's schedule is not written. -/
def deriveSchedule (a : Alg) (kb : List Byte) (s : State) : State :=
  match a with
  | .blowfish => { s with bf := bfDeriveSchedule kb }
  | .twofish => { s with tf := tfDeriveSchedule kb }

/-- R226, R229: the session opens with its fields, and CV is IVBUF in CBC and zeros in ECB. -/
def openSession (a : Alg) (dir : Dir) (mode : Mode) (s : State) : State :=
  { s with
    sAlg := a
    sDir := dir
    sMode := mode
    sessValid := true
    cv := match mode with
      | .cbc => s.ivbuf
      | .ecb => zeroBytes 16 }

/-- R226: KEYSCHED. The key bytes are those that stand when the command runs. -/
def execKeysched (alg : Nat) (dir : Dir) (mode : Mode) (keylen : Nat) (s : State) : Answer :=
  match keyschedError alg keylen with
  | some e => raise e (keyschedEntry s)
  | none =>
      .next (complete 0
        (openSession (algOf alg) dir mode (deriveSchedule (algOf alg) (keyBytes s keylen) (keyschedEntry s))))

end Sys2Proof.Machine
end

