-- ==== Sys2Proof/Machine/Dispatch.lean ====
section
/-! DEFINITION. One arm per command: the dispatch of 30_encoding.md R109. -/

namespace Sys2Proof.Machine

def exec (i : Instr) (s : State) : Host.Outcome State Fault Refusal :=
  match i with
  | .nop => Sys2Proof.Machine.execNop s
  | .keysched alg dir mode keylen => Sys2Proof.Machine.execKeysched alg dir mode keylen s
  | .block => Sys2Proof.Machine.execBlock s
  | .final nbytes => Sys2Proof.Machine.execFinal nbytes s
  | .zeroize => Sys2Proof.Machine.execZeroize s

end Sys2Proof.Machine
end

