-- ==== Sys2Proof/Machine/Flags.lean ====
section
/-! DEFINITION. The words in which software sees the flags and fields (10_state.md R37, R38, R46, R47), the
write-one-to-clear of STATUS (R38), and the IRQ output (60_exceptions.md R289). The engine has no arithmetic
flags (R59). -/

namespace Sys2Proof.Machine

/-- A one-bit field at bit n of a register's word. -/
def flagBit (b : Bool) (n : Nat) : Word := (BitVec.ofBool b).setWidth 32 <<< n

/-- R37: CTRL as read: IE_ERR in bit 1, IE_DONE in bit 0, the rest 0. -/
def ctrlWord (s : State) : Word := flagBit s.ieErr 1 ||| flagBit s.ieDone 0

/-- R38: STATUS as read: DETAIL in bits 23:16, ERR in 11:8, SESS_VALID, OVR, ERRF, DONE and BUSY in bits 4 to 0,
the reserved bits 31:24, 15:12 and 7:5 zero. -/
def statusWord (s : State) : Word :=
  s.detail.setWidth 32 <<< 16 ||| s.err.setWidth 32 <<< 8 ||| flagBit s.sessValid 4 ||| flagBit s.ovr 3
    ||| flagBit s.errf 2 ||| flagBit s.done 1 ||| flagBit s.busy 0

/-- R46: SESSION as read: BS in bits 12:8, MODE in bit 3, DIR in bit 2, ALG in bits 1:0, the rest 0; 0 when no
session is open. -/
def sessionWord (s : State) : Word :=
  if s.sessValid then
    BitVec.ofNat 32 (blockSize s.sAlg) <<< 8 ||| (modeBit s.sMode).setWidth 32 <<< 3
      ||| (dirBit s.sDir).setWidth 32 <<< 2 ||| (algBits s.sAlg).setWidth 32
  else 0

/-- R47: RESULT as read: NOUT in bits 4:0. -/
def resultWord (s : State) : Word := s.nout.setWidth 32

/-- R37: a CTRL write of v; bits 31:2 are ignored. -/
def writeCtrl (v : Word) (s : State) : State := { s with ieDone := v.getLsbD 0, ieErr := v.getLsbD 1 }

/-- R38: a STATUS write of v: `if v[1] then DONE <- 0; if v[2] then ERRF <- 0; if v[3] then OVR <- 0`. -/
def clearStatus (v : Word) (s : State) : State :=
  { s with
    done := s.done && !v.getLsbD 1
    errf := s.errf && !v.getLsbD 2
    ovr := s.ovr && !v.getLsbD 3 }

/-- R289: `IRQ = (STATUS.DONE & CTRL.IE_DONE) | (STATUS.ERRF & CTRL.IE_ERR)`. -/
def irq (s : State) : Bool := (s.done && s.ieDone) || (s.errf && s.ieErr)

/-- R8, R289: the level this engine drives on the platform's interrupt line n; IRQ_ID is open (log 5). -/
def platformIrq (s : State) (n : Nat) : Bool := decide (n = Config.irqId) && irq s

end Sys2Proof.Machine
end

