-- ==== Sys2Proof/Machine/Registers.lean ====
section
/-! DEFINITION. The register map (10_state.md R32-R37, R45-R52) and what a 4-byte aligned access to it does
(20_memory.md R72, R76; 43_mode_driver.md R223; 70_reset_and_hazards.md R327). -/

namespace Sys2Proof.Machine

/-- R32: the registers of the window. -/
inductive Reg where
  | id
  | version
  | ctrl
  | status
  | cmd
  | session
  | result
  | key (n : Fin 14)
  | iv (n : Fin 4)
  | din (n : Fin 4)
  | dout (n : Fin 4)
  /-- An offset no register has (R33). -/
  | reserved
  deriving DecidableEq, Repr

/-- R32: the register at a 4-byte aligned offset. -/
def regAt (off : Nat) : Reg :=
  if off = 0x000 then .id
  else if off = 0x004 then .version
  else if off = 0x008 then .ctrl
  else if off = 0x00C then .status
  else if off = 0x010 then .cmd
  else if off = 0x014 then .session
  else if off = 0x018 then .result
  else if h : 0x040 ≤ off ∧ off < 0x078 then .key ⟨(off - 0x040) / 4, by omega⟩
  else if h : 0x080 ≤ off ∧ off < 0x090 then .iv ⟨(off - 0x080) / 4, by omega⟩
  else if h : 0x090 ≤ off ∧ off < 0x0A0 then .din ⟨(off - 0x090) / 4, by omega⟩
  else if h : 0x0A0 ≤ off ∧ off < 0x0B0 then .dout ⟨(off - 0x0A0) / 4, by omega⟩
  else .reserved

/-- R76: what a read returns; no read has a side effect. Write-only registers and reserved offsets read 0
(R33, R34). -/
def regRead (r : Reg) (s : State) : Word :=
  match r with
  | .id => Config.idValue
  | .version => Config.versionValue
  | .ctrl => ctrlWord s
  | .status => statusWord s
  | .cmd => 0
  | .session => sessionWord s
  | .result => resultWord s
  | .key _ => 0
  | .iv n => readLane s.ivbuf n.val
  | .din n => readLane s.dinbuf n.val
  | .dout n => readLane s.doutbuf n.val
  | .reserved => 0

/-- R42, R327: a write that is accepted only while BUSY = 0; while BUSY = 1 it is dropped and sets OVR. -/
def unlessBusy (accept : State → State) (s : State) : State :=
  if s.busy then { s with ovr := true } else accept s

/-- R76: what a write does. Writes to read-only registers and reserved offsets change nothing (R33, R34). -/
def regWrite (r : Reg) (v : Word) (s : State) : State :=
  match r with
  | .id => s
  | .version => s
  | .ctrl => writeCtrl v s
  | .status => clearStatus v s
  | .cmd => unlessBusy (latchCommand v) s
  | .session => s
  | .result => s
  | .key n => unlessBusy (fun t => { t with keybuf := writeLane t.keybuf n.val v }) s
  | .iv n => unlessBusy (fun t => { t with ivbuf := writeLane t.ivbuf n.val v }) s
  | .din n => unlessBusy (fun t => { t with dinbuf := writeLane t.dinbuf n.val v }) s
  | .dout _ => s
  | .reserved => s

end Sys2Proof.Machine
end

