-- ==== Sys2Proof/Machine/Port.lean ====
section
/-! DEFINITION. The bus target port (20_memory.md R70-R74, R81; 60_exceptions.md R287, R294). -/

namespace Sys2Proof.Machine

/-- R8, R12, R294: which masters reach the window (log 5). -/
def mayReach : Master → Bool
  | .host => true
  | .other n => Config.busAccessPolicy n

/-- R71: "A host access at bus address A reaches the engine when BASE ≤ A < BASE + 4096", for a master that the
platform lets through (R294). -/
def reaches (a : BusAccess) : Bool :=
  mayReach a.master && decide (Config.base ≤ a.addr) && decide (a.addr < Config.base + Config.windowBytes)

/-- R73: the only access the window admits: 4 bytes at a 4-byte aligned offset. -/
def admitted (off size : Nat) : Bool := decide (size = 4) && decide (off % 4 = 0)

/-- R73 to R76: an access of `size` bytes at offset `off` of the window: the state after it and the answer to the
master. A refused access changes nothing. -/
def windowAccess (off size : Nat) (kind : AccessKind) (s : State) : State × Reply :=
  if admitted off size then
    match kind with
    | .read => (s, .data (regRead (regAt off) s))
    | .write v => (regWrite (regAt off) v s, .written)
  else (s, .busError)

/-- R71, R81: one access, performed whole. An access that does not reach the engine leaves it alone (log 4). -/
def portAccess (a : BusAccess) (s : State) : State × Reply :=
  if reaches a then windowAccess (a.addr - Config.base) a.size a.kind s else (s, .notReached)

/-- The answer goes to the master that asked (R74). -/
def logReply (m : Master) (r : State × Reply) : State := { r.1 with replies := (m, r.2) :: r.1.replies }

/-- One access of the agenda: performed at the port, its answer delivered. -/
def performAccess (a : BusAccess) (s : State) : State := logReply a.master (portAccess a s)

end Sys2Proof.Machine
end

