-- ==== Sys2Proof/Machine/Engine.lean ====
section
/-! DEFINITION. The engine step (43_mode_driver.md R224) and the events of the machine (00_scope.md R12,
60_exceptions.md R293). -/

namespace Sys2Proof.Machine

/-- R109, R224: the command of a latched word: decoded first, a word that decodes to no command raises its
error. -/
def runCommand (w : Word) (s : State) : Answer :=
  match decode w with
  | .ok i => exec i s
  | .error e => raise (decodeFault e) s

/-- R31, R224: when BUSY = 1 the engine performs the command in LCMD; in IDLE there is nothing to perform
(log 8). -/
def engineStep (s : State) : Answer := if s.busy then runCommand (fetchCommand s) s else .next s

/-- One event of the agenda. -/
def performEvent (e : Event) (s : State) : Answer :=
  match e with
  | .access a => .next (performAccess a s)
  | .completion => engineStep s
  | .resetPulse => .next (resetEngine s)

/-- The step: the oldest event of the agenda happens; with no event to come, the command in progress completes
(R224: "after a finite number of cycles"), and an idle engine stays as it is (R299; log 1, log 8). -/
def stepWith (agenda : List Event) (s : State) : Answer :=
  match agenda with
  | [] => engineStep s
  | e :: rest => performEvent e { s with agenda := rest }

end Sys2Proof.Machine
end

