-- ==== Sys2Proof/Machine/Step.lean ====
section
/-! DEFINITION. The step of the machine, and the placing of a command word where the next step runs it. -/

namespace Sys2Proof.Machine

/-- One step of the machine (00_scope.md R12): the next event of the agenda. -/
def step (s : State) : Host.Outcome State Fault Refusal := stepWith s.agenda s

/-- The state in which the word has just been accepted as a command (43_mode_driver.md R223) and its completion
is the very next event: the engine fetches nothing but LCMD (20_memory.md R85; log 10). -/
def State.withFetchWord (s : State) (nbits w : Nat) : State :=
  { latchCommand (tableWord nbits w) s with agenda := .completion :: s.agenda }

end Sys2Proof.Machine
end

