-- ==== Sys2Proof/Machine/HostSequences.lean ====
section
/-! DEFINITION. The host's side as far as the spec gives it: the pseudo-instructions of 30_encoding.md R115 and the
host sequences of 70_reset_and_hazards.md R324 and R325, over the port's operations. The step does not use this
file; claims about whole messages do. WAIT is the point after the completion (log 13). -/

namespace Sys2Proof.Machine

/-- R115: word k of a byte list, LE32 of its bytes 4k..4k+3, "missing bytes 0". -/
def hostWord (b : List Byte) (k : Nat) : Word :=
  le32 (b.getD (4 * k) 0) (b.getD (4 * k + 1) 0) (b.getD (4 * k + 2) 0) (b.getD (4 * k + 3) 0)

/-- R115: "for k = 0..": one 4-byte write for each of the first `words` words of the byte list, from offset `off` of
the window on. -/
def loadWords (off words : Nat) (b : List Byte) (s : State) : State :=
  (List.range words).foldl (fun t k => (windowAccess (off + 4 * k) 4 (.write (hostWord b k)) t).1) s

/-- R115: the words that hold n bytes, ceil(n/4). -/
def wordsOf (b : List Byte) : Nat := (b.length + 3) / 4

/-- R115: LDKEY, `k = 0..ceil(n/4)-1`. R115 gives n no bound and there is no KEY14: that a list of more than 56 bytes
writes on past KEY13, at the offsets that follow, is the model's choice (log 15). -/
def ldKey (b : List Byte) (s : State) : State := loadWords 0x040 (wordsOf b) b s

/-- R115: LDIV, `k = 0..3` however many bytes are given: "`LDIV` with 8 bytes writes IV2 and IV3 as 0"
(95_test_vectors.md, program P5). That
bytes past the 16th are not written is the model's choice (log 15). -/
def ldIv (b : List Byte) (s : State) : State := loadWords 0x080 4 b s

/-- R115: LDBLK, `k = 0..ceil(n/4)-1`, for n ≤ 16; what it does with a longer list is the model's choice (log 15). -/
def ldBlk (b : List Byte) (s : State) : State := loadWords 0x090 (wordsOf b) b s

/-- R115: STBLK, the 16 bytes that the words DOUT0 to DOUT3 carry (R236). -/
def stBlk (s : State) : List Byte :=
  (List.range 4).flatMap fun k => (leBytes (regRead (regAt (0x0A0 + 4 * k)) s)).toList

/-- R115: CLR, the write-one-to-clear of STATUS. -/
def clr (mask : Word) (s : State) : State := (windowAccess 0x00C 4 (.write mask) s).1

/-- R114, R115: ISSUE of a word, which `.cmd <hex>` gives raw. -/
def issueWord (w : Word) (s : State) : State := (windowAccess 0x010 4 (.write w) s).1

/-- R115: ISSUE of a command, `WR CMD, enc(<command>)`. -/
def issue (i : Instr) (s : State) : State := issueWord (encode i) s

/-- R115: WAIT, the loop while BUSY = 1: the engine after the completion of the command in progress. -/
def wait (s : State) : Answer := engineStep s

/-- R115: RUN of a word: ISSUE, then WAIT. -/
def runWord (w : Word) (s : State) : Answer := wait (issueWord w s)

/-- Why a host sequence ends without a result (R268, R324, R325). No failure carries output: the host discards the
blocks it has read (R268, R325 "discard out, fail"). -/
inductive HostFailure where
  /-- R268, R325: "if L = 0 or L mod bs != 0 then fail InvalidBlockSize", the host's own check; the engine has not
  been touched. -/
  | invalidBlockSize
  /-- R324: the host "stops on an error": the engine as the failed RUN left it, whose STATUS.ERR "says why". -/
  | commandError (t : State)
  /-- The engine answered no next state; no command does that. -/
  | refused (r : Refusal)
  deriving DecidableEq, Repr

/-- R324: "the host checks STATUS.ERRF or STATUS.ERR after every RUN and stops on an error". -/
def checkRun (r : Answer) : Except HostFailure State :=
  match r with
  | .next t => if t.err = 0 then .ok t else .error (.commandError t)
  | .fault f => nomatch f
  | .refused r => .error (.refused r)

/-- R115, R324: RUN of a word and the host's check after it. -/
def hostRunWord (w : Word) (s : State) : Except HostFailure State := checkRun (runWord w s)

/-- R115, R324: RUN of a command and the host's check after it. -/
def hostRun (i : Instr) (s : State) : Except HostFailure State := hostRunWord (encode i) s

/-- R324, R325: the loop over `n` full blocks of the message: LDBLK, RUN BLOCK, and STBLK[0..bs-1] into `out`. -/
def runBlocks (bs : Nat) : Nat → List Byte → State → Except HostFailure (State × List Byte)
  | 0, _, s => .ok (s, [])
  | n + 1, m, s =>
      (hostRun .block (ldBlk (m.take bs) s)).bind fun t =>
        (runBlocks bs n (m.drop bs) t).map fun r => (r.1, (stBlk t).take bs ++ r.2)

/-- R324, R325: the opening of a message: the IV in CBC, the key, and KEYSCHED. What it issues for an ALG or a key
length that R107's fields do not hold is the model's choice (log 15). -/
def openMessage (alg : Nat) (dir : Dir) (mode : Mode) (kb iv : List Byte) (s : State) : Except HostFailure State :=
  hostRun (.keysched alg dir mode kb.length)
    (ldKey kb (match mode with
      | .cbc => ldIv iv s
      | .ecb => s))

/-- R324: ENCRYPT(ALG, MODE, KB, IV, M): the state after it and the ciphertext, or why the host stops. -/
def encryptMessage (alg : Nat) (mode : Mode) (kb iv m : List Byte) (s : State) : Except HostFailure (State × List Byte) :=
  let bs := blockSize (algOf alg)
  let full := m.length / bs
  (openMessage alg .enc mode kb iv s).bind fun s1 =>
    (runBlocks bs full m s1).bind fun r =>
      (hostRun (.final (m.length % bs)) (ldBlk (m.drop (bs * full)) r.1)).map fun t =>
        (t, r.2 ++ (stBlk t).take bs)

/-- R325: DECRYPT(ALG, MODE, KB, IV, C): the state after it and the message; InvalidBlockSize where the host fails by
itself ("if L = 0 or L mod bs != 0"), or the error on which it stops. -/
def decryptMessage (alg : Nat) (mode : Mode) (kb iv c : List Byte) (s : State) : Except HostFailure (State × List Byte) :=
  let bs := blockSize (algOf alg)
  if c.length = 0 ∨ c.length % bs ≠ 0 then .error .invalidBlockSize
  else
    let full := c.length / bs - 1
    (openMessage alg .dec mode kb iv s).bind fun s1 =>
      (runBlocks bs full c s1).bind fun r =>
        (hostRun (.final 0) (ldBlk (c.drop (bs * full)) r.1)).map fun t =>
          (t, r.2 ++ (stBlk t).take (regRead (regAt 0x018) t).toNat)

end Sys2Proof.Machine
end

