-- ==== Sys2Proof/Safety.lean ====
section
/-! DEFINITION. What a sound state of the engine is, in the spec's terms, and what a safe run is. -/

namespace Sys2Proof.Machine

/-- R55: "While SESS_VALID = 0 they are 0"; R54: TK is "0 when no Twofish session is open"; R222: CV is zeroized
by session close. -/
def ClosedIsClear (s : State) : Prop :=
  s.sessValid = false →
    s.sAlg = .blowfish ∧ s.sDir = .enc ∧ s.sMode = .ecb ∧ s.tf.tk = 0 ∧ s.cv = zeroBytes 16

/-- R54: TK is 2, 3 or 4 in a Twofish session and 0 otherwise. -/
def KeyUnitsLegal (s : State) : Prop :=
  (s.sAlg = .blowfish → s.tf.tk = 0) ∧ (s.sAlg = .twofish → s.tf.tk = 2 ∨ s.tf.tk = 3 ∨ s.tf.tk = 4)

/-- R229: in an ECB session CV is zeros. -/
def EcbHasNoChaining (s : State) : Prop := s.sMode = .ecb → s.cv = zeroBytes 16

/-- R281, R282: the codes that are produced: ERR is 0 to 5 or 7, and DETAIL is 1, 2 or 3 with ERR 7 and 0 with
every other. -/
def CodesProduced (s : State) : Prop :=
  (s.err = 7 ∧ (s.detail = 1 ∨ s.detail = 2 ∨ s.detail = 3)) ∨ (s.err.toNat ≤ 5 ∧ s.detail = 0)

/-- R286: after a command that reported an error no session is open and DOUT and NOUT are zero, until a later
command completes. -/
def ErrorLeavesNothing (s : State) : Prop :=
  s.err ≠ 0 → s.sessValid = false ∧ s.doutbuf = zeroBytes 16 ∧ s.nout = 0

/-- R40: DONE is 0 while a command is in progress; R47: NOUT is at most 16. -/
def StatusConsistent (s : State) : Prop := (s.busy = true → s.done = false) ∧ s.nout.toNat ≤ 16

/-- R52: in a Blowfish session DOUTBUF[8..15] is 0. -/
def BlowfishOutputShort (s : State) : Prop :=
  s.sessValid = true → s.sAlg = .blowfish → ∀ i : Fin 16, 8 ≤ i.val → s.doutbuf[i] = 0

/-- The invariant of the engine: what R40, R47, R52, R54, R55, R222, R229, R281, R282 and R286 say of every
reachable state. Nothing in it is about P, S, K or SK, whose reset values are the model's choice (log 2). -/
structure Inv (s : State) : Prop where
  closed : ClosedIsClear s
  keyUnits : KeyUnitsLegal s
  ecb : EcbHasNoChaining s
  codes : CodesProduced s
  error : ErrorLeavesNothing s
  status : StatusConsistent s
  short : BlowfishOutputShort s

/-- A safe step answers a next state: no fault, no refusal. -/
def SafeStep (s : State) : Prop := ∃ t, step s = .next t

end Sys2Proof.Machine
end

