-- ==== Sys2Proof/Certificates/Slice0/Obligations.lean ====
section
/-! DEFINITION. The statements about the model, from the numbered rules of spec/. Buffers, words and states are
written out here (not through the model's shared operations) wherever a rule gives them. -/

open Sys2Proof Sys2Proof.Machine

/-! ## Encoding -/

/-- R110, its examples: words written out from the encoding decode to their commands. -/
def Obligations.ExampleWordsDecode : Prop :=
  decode 0x00000000 = .ok .nop ∧ decode 0x00000801 = .ok (.keysched 0 .enc .ecb 8) ∧
  decode 0x000020D1 = .ok (.keysched 1 .dec .cbc 32) ∧ decode 0x00000002 = .ok .block ∧
  decode 0x00050003 = .ok (.final 5) ∧ decode 0x00000004 = .ok .zeroize ∧
  decode 0xFFFFFFFF = .error .badOpcode ∧ decode 0x00100003 = .error .badField

/-- Every command's word decodes to the command, every operand at every value its field admits. -/
def Obligations.DecodeOfEncode : Prop :=
  ∀ i : Instr, i.wf = true → decode (encode i) = .ok i

/-- A word that decodes is the word of its command, and the command is well-formed: no word has two readings and
no bit of it is ignored. -/
def Obligations.EncodeOfDecode : Prop :=
  ∀ (w : Word) (i : Instr), decode w = .ok i → encode i = w ∧ i.wf = true

/-- R110: the opcode map by match and mask, with the fields of R107 taken by arithmetic on the word. -/
def Obligations.DecodeFollowsOpcodeMap : Prop :=
  ∀ w : Word,
    (decode w = .ok .nop ↔ w &&& 0xFFFFFFFF = 0x00000000) ∧
    (∀ alg dir mode keylen, decode w = .ok (.keysched alg dir mode keylen) ↔
      w &&& 0xFFFFC00F = 0x00000001 ∧ alg = w.toNat / 2 ^ 4 % 4 ∧
      dir = (if w.toNat / 2 ^ 6 % 2 = 0 then .enc else .dec) ∧
      mode = (if w.toNat / 2 ^ 7 % 2 = 0 then .ecb else .cbc) ∧ keylen = w.toNat / 2 ^ 8 % 64) ∧
    (decode w = .ok .block ↔ w &&& 0xFFFFFFFF = 0x00000002) ∧
    (∀ n, decode w = .ok (.final n) ↔ w &&& 0xFFF0FFFF = 0x00000003 ∧ n = w.toNat / 2 ^ 16 % 16) ∧
    (decode w = .ok .zeroize ↔ w &&& 0xFFFFFFFF = 0x00000004)

/-- R109: a reserved OP is BAD_OPCODE whatever its other bits; a defined OP with a nonzero must-be-zero bit
(R108) is BAD_FIELD; every other word dispatches. -/
def Obligations.DecodeRejectsByName : Prop :=
  ∀ w : Word,
    let op := w.toNat % 16
    let mbz : Word := if op = 1 then 0xFFFFC000 else if op = 3 then 0xFFF0FFF0 else 0xFFFFFFF0
    (5 ≤ op → decode w = .error .badOpcode) ∧
    (op < 5 → w &&& mbz ≠ 0 → decode w = .error .badField) ∧
    (op < 5 → w &&& mbz = 0 → ∃ i, decode w = .ok i)

/-! ## The step -/

/-- R224: when the completion of an accepted command is next, the step is exec of the decoded command, in the
state with that event taken off the agenda. The agenda, and that the command completes where it is empty, are the
model's choice (log 1). -/
def Obligations.StepRunsDecodedCommand : Prop :=
  ∀ (s : State) (i : Instr), s.busy = true → decode s.lcmd = .ok i →
    (∀ rest, s.agenda = .completion :: rest → step s = exec i { s with agenda := rest }) ∧
    (s.agenda = [] → step s = exec i s)

/-- R109, R112, R286: a word that decodes to no command is an accepted command whose completion is the error
completion: ERR 7, DETAIL 1 or 2, an open session closed, DOUT and NOUT zero, KEYBUF, IVBUF, CTRL, OVR and LCMD
as they were. The agenda, and that the command completes where it is empty, are the model's choice (log 1). -/
def Obligations.StepReportsRejectedWord : Prop :=
  ∀ (s : State) (e : DecodeError) (rest : List Event),
    s.busy = true → decode s.lcmd = .error e → (s.agenda = .completion :: rest ∨ (s.agenda = [] ∧ rest = [])) →
    step s = .next { s with
      agenda := rest
      bf := if s.sessValid then BFSchedule.zero else s.bf
      tf := if s.sessValid then TFSchedule.zero else s.tf
      cv := if s.sessValid then Vector.replicate 16 0 else s.cv
      dinbuf := if s.sessValid then Vector.replicate 16 0 else s.dinbuf
      sAlg := if s.sessValid then .blowfish else s.sAlg
      sDir := if s.sessValid then .enc else s.sDir
      sMode := if s.sessValid then .ecb else s.sMode
      sessValid := false
      doutbuf := Vector.replicate 16 0
      nout := 0
      err := 7
      detail := match e with
        | .badOpcode => 1
        | .badField => 2
      errf := true
      busy := false
      done := true }

/-- Every step of every state answers a next state. For the completions of commands R112, R280 and R286 say so. That
a refused access (R74, R287) does not stop the machine is the model's deduction (log 3), and what a step of an idle
engine answers is its choice (log 8). -/
def Obligations.EveryStepAnswersNext : Prop :=
  ∀ s : State, SafeStep s

/-- The engine comes to rest: from any state, once every event of the agenda has happened and one more step is taken,
it is idle, whether the command in progress completed (R224, R330: after a finite number of cycles) or a reset abandoned
it (R322). That the command completes one step after the agenda is empty is the model's choice (log 1), as are the steps
of an idle engine (log 8). -/
def Obligations.EngineComesToRest : Prop :=
  ∀ s : State, ∃ t, Sys2Proof.core.run (s.agenda.length + 1) s = .next t ∧ t.agenda = [] ∧ t.busy = false

/-- R320, R322, R58: reset at any moment, also while BUSY = 1: no completion, no interrupt, no session, every
register and buffer at its reset value. (P, S, K and SK are unspecified after reset and not named here.) That the rest of
the agenda stays is the model's deduction (log 14). -/
def Obligations.ResetAbandonsAndClears : Prop :=
  ∀ (s : State) (rest : List Event), s.agenda = .resetPulse :: rest →
    ∃ t, step s = .next t ∧ t.busy = false ∧ t.done = false ∧ t.errf = false ∧ t.ovr = false ∧ t.sessValid = false ∧
      irq t = false ∧ t.err = 0 ∧ t.detail = 0 ∧ t.nout = 0 ∧ t.ieDone = false ∧ t.ieErr = false ∧ t.lcmd = 0 ∧
      algBits t.sAlg = 0 ∧ dirBit t.sDir = 0 ∧ modeBit t.sMode = 0 ∧ t.keybuf = Vector.replicate 56 0 ∧
      t.ivbuf = Vector.replicate 16 0 ∧ t.dinbuf = Vector.replicate 16 0 ∧ t.doutbuf = Vector.replicate 16 0 ∧
      t.cv = Vector.replicate 16 0 ∧ t.tf.tk = 0 ∧ t.agenda = rest

/-- R321: the values a host reads first after reset, register by register, and the IRQ output. -/
def Obligations.ResetReads : Prop :=
  regRead .id State.reset = 0x42465446 ∧ regRead .version State.reset = 0x00010000 ∧
  regRead .ctrl State.reset = 0 ∧ regRead .status State.reset = 0 ∧ regRead .session State.reset = 0 ∧
  regRead .result State.reset = 0 ∧ regRead .cmd State.reset = 0 ∧ (∀ n, regRead (.key n) State.reset = 0) ∧
  (∀ n, regRead (.iv n) State.reset = 0) ∧ (∀ n, regRead (.din n) State.reset = 0) ∧
  (∀ n, regRead (.dout n) State.reset = 0) ∧ irq State.reset = false

/-! ## The commands -/

/-- R225: NOP is complete(0) and nothing else; a word with OP = 0 and any other bit set is BAD_FIELD. -/
def Obligations.NopCompletes : Prop :=
  (∀ s : State, exec .nop s = .next { s with nout := 0, err := 0, detail := 0, busy := false, done := true }) ∧
  (∀ w : Word, w.toNat % 16 = 0 → w ≠ 0 → decode w = .error .badField)

/-- R237: ZEROIZE closes an open session and clears KEYBUF, IVBUF, DINBUF, DOUTBUF and CV; CTRL, ERRF, OVR and
LCMD stay. -/
def Obligations.ZeroizeClearsEveryBuffer : Prop :=
  ∀ s : State, exec .zeroize s = .next { s with
    bf := if s.sessValid then BFSchedule.zero else s.bf
    tf := if s.sessValid then TFSchedule.zero else s.tf
    sAlg := if s.sessValid then .blowfish else s.sAlg
    sDir := if s.sessValid then .enc else s.sDir
    sMode := if s.sessValid then .ecb else s.sMode
    sessValid := false
    keybuf := Vector.replicate 56 0
    ivbuf := Vector.replicate 16 0
    dinbuf := Vector.replicate 16 0
    doutbuf := Vector.replicate 16 0
    cv := Vector.replicate 16 0
    nout := 0
    err := 0
    detail := 0
    busy := false
    done := true }

/-- R226, R228, R229: a KEYSCHED with a known algorithm and a legal key length opens the session: the key is
KEYBUF[0..KEYLEN-1] as it stood, KEYBUF and DOUTBUF end zero, an open session is closed first (with DINBUF), CV is
IVBUF in CBC and zeros in ECB; CTRL, ERRF, OVR, LCMD and IVBUF stay. -/
def Obligations.KeyschedOpensSession : Prop :=
  ∀ (alg keylen : Nat) (dir : Dir) (mode : Mode) (s : State),
    ((alg = 0 ∧ 4 ≤ keylen ∧ keylen ≤ 56) ∨ (alg = 1 ∧ (keylen = 16 ∨ keylen = 24 ∨ keylen = 32))) →
    exec (.keysched alg dir mode keylen) s = .next { s with
      keybuf := Vector.replicate 56 0
      doutbuf := Vector.replicate 16 0
      dinbuf := if s.sessValid then Vector.replicate 16 0 else s.dinbuf
      bf := if alg = 0 then bfDeriveSchedule (s.keybuf.toList.take keylen)
        else if s.sessValid then BFSchedule.zero else s.bf
      tf := if alg = 1 then tfDeriveSchedule (s.keybuf.toList.take keylen)
        else if s.sessValid then TFSchedule.zero else s.tf
      sAlg := if alg = 0 then .blowfish else .twofish
      sDir := dir
      sMode := mode
      sessValid := true
      cv := if mode = .cbc then s.ivbuf else Vector.replicate 16 0
      nout := 0
      err := 0
      detail := 0
      busy := false
      done := true }

/-- R227, R226: every other KEYSCHED reports its error in the order algorithm, minimum length, legal length, with
the key consumed, an open session closed and no schedule entry derived. -/
def Obligations.KeyschedRejectsBadKeys : Prop :=
  ∀ (alg keylen : Nat) (dir : Dir) (mode : Mode) (s : State) (code : BitVec 4),
    ((2 ≤ alg ∧ code = 3) ∨
      (alg = 0 ∧ keylen < 4 ∧ code = 2) ∨ (alg = 0 ∧ 56 < keylen ∧ code = 1) ∨
      (alg = 1 ∧ keylen < 16 ∧ code = 2) ∨
      (alg = 1 ∧ 16 ≤ keylen ∧ keylen ≠ 16 ∧ keylen ≠ 24 ∧ keylen ≠ 32 ∧ code = 1)) →
    exec (.keysched alg dir mode keylen) s = .next { s with
      keybuf := Vector.replicate 56 0
      bf := if s.sessValid then BFSchedule.zero else s.bf
      tf := if s.sessValid then TFSchedule.zero else s.tf
      cv := if s.sessValid then Vector.replicate 16 0 else s.cv
      dinbuf := if s.sessValid then Vector.replicate 16 0 else s.dinbuf
      sAlg := if s.sessValid then .blowfish else s.sAlg
      sDir := if s.sessValid then .enc else s.sDir
      sMode := if s.sessValid then .ecb else s.sMode
      sessValid := false
      doutbuf := Vector.replicate 16 0
      nout := 0
      err := code
      detail := 0
      errf := true
      busy := false
      done := true }

/-- R230 to R236 in a Blowfish session: the block is DINBUF[0..7], chained by the session's mode with CV[0..7];
DOUTBUF[8..15] ends zero, CV[8..15] and DINBUF stay, the session stays open. -/
def Obligations.BlockInBlowfishSession : Prop :=
  ∀ s : State, s.sessValid = true → s.sAlg = .blowfish →
    let x : Vector Byte 8 := Vector.ofFn fun i => s.dinbuf[i.val]
    let chain0 : Vector Byte 8 := Vector.ofFn fun i => s.cv[i.val]
    let y : Vector Byte 8 := match s.sMode, s.sDir with
      | .ecb, .enc => bfEncryptBlock s.bf x
      | .ecb, .dec => bfDecryptBlock s.bf x
      | .cbc, .enc => bfEncryptBlock s.bf (Vector.ofFn fun i => x[i] ^^^ chain0[i])
      | .cbc, .dec => Vector.ofFn fun i => (bfDecryptBlock s.bf x : Vector Byte 8)[i] ^^^ chain0[i]
    let chain1 : Vector Byte 8 := match s.sMode, s.sDir with
      | .ecb, _ => chain0
      | .cbc, .enc => y
      | .cbc, .dec => x
    exec .block s = .next { s with
      doutbuf := Vector.ofFn fun i => if h : i.val < 8 then y[i.val] else 0
      cv := Vector.ofFn fun i => if h : i.val < 8 then chain1[i.val] else s.cv[i]
      nout := 8
      err := 0
      detail := 0
      busy := false
      done := true }

/-- R230 to R236 in a Twofish session: the block is DINBUF[0..15]. -/
def Obligations.BlockInTwofishSession : Prop :=
  ∀ s : State, s.sessValid = true → s.sAlg = .twofish →
    let y : Vector Byte 16 := match s.sMode, s.sDir with
      | .ecb, .enc => tfEncryptBlock s.tf s.dinbuf
      | .ecb, .dec => tfDecryptBlock s.tf s.dinbuf
      | .cbc, .enc => tfEncryptBlock s.tf (Vector.ofFn fun i => s.dinbuf[i] ^^^ s.cv[i])
      | .cbc, .dec => Vector.ofFn fun i => (tfDecryptBlock s.tf s.dinbuf : Vector Byte 16)[i] ^^^ s.cv[i]
    let chain1 : Vector Byte 16 := match s.sMode, s.sDir with
      | .ecb, _ => s.cv
      | .cbc, .enc => y
      | .cbc, .dec => s.dinbuf
    exec .block s = .next { s with
      doutbuf := y, cv := chain1, nout := 16, err := 0, detail := 0, busy := false, done := true }

/-- R284 (step 2), R286: BLOCK and FINAL, whatever NBYTES is, without a session report NO_SESSION. -/
def Obligations.BlockCommandsNeedASession : Prop :=
  ∀ (s : State) (i : Instr), s.sessValid = false → (i = .block ∨ ∃ n, i = .final n) →
    exec i s = .next { s with
      doutbuf := Vector.replicate 16 0, nout := 0, err := 7, detail := 3, errf := true, busy := false, done := true }

/-- R260, R262: FINAL in an encrypt session with n < bs encrypts DINBUF[0..n-1] followed by bs - n bytes equal to
bs - n, and closes the session. -/
def Obligations.FinalPadsAndEncrypts : Prop :=
  ∀ (n : Nat) (s : State), s.sessValid = true → s.sDir = .enc → n < blockSize s.sAlg →
    let x : Vector Byte (blockSize s.sAlg) := Vector.ofFn fun i =>
      if i.val < n then s.dinbuf[i.val]'(Nat.lt_of_lt_of_le i.isLt (blockSize_le _))
      else BitVec.ofNat 8 (blockSize s.sAlg - n)
    let y : Vector Byte (blockSize s.sAlg) := encryptWith s.bf s.tf s.sAlg (match s.sMode with
      | .ecb => x
      | .cbc => Vector.ofFn fun i => x[i] ^^^ s.cv[i.val]'(Nat.lt_of_lt_of_le i.isLt (blockSize_le _)))
    exec (.final n) s = .next { s with
      doutbuf := Vector.ofFn fun i => if h : i.val < blockSize s.sAlg then y[i.val] else 0
      nout := BitVec.ofNat 5 (blockSize s.sAlg)
      bf := BFSchedule.zero, tf := TFSchedule.zero, cv := Vector.replicate 16 0, dinbuf := Vector.replicate 16 0
      sAlg := .blowfish, sDir := .enc, sMode := .ecb, sessValid := false
      err := 0, detail := 0, busy := false, done := true }

/-- R263, R264, R265: FINAL 0 in a decrypt session: a block whose last byte p is 1..bs and whose last p bytes are
all p gives its first bs - p bytes, then zeros; any other block gives InvalidPadding and no byte of it. The session
closes either way. -/
def Obligations.FinalDecryptsAndChecksPad : Prop :=
  ∀ s : State, s.sessValid = true → s.sDir = .dec →
    let x : Vector Byte (blockSize s.sAlg) := Vector.ofFn fun i =>
      s.dinbuf[i.val]'(Nat.lt_of_lt_of_le i.isLt (blockSize_le _))
    let d : Vector Byte (blockSize s.sAlg) := decryptWith s.bf s.tf s.sAlg x
    let y : Vector Byte (blockSize s.sAlg) := match s.sMode with
      | .ecb => d
      | .cbc => Vector.ofFn fun i => d[i] ^^^ s.cv[i.val]'(Nat.lt_of_lt_of_le i.isLt (blockSize_le _))
    let p : Nat := (y[blockSize s.sAlg - 1]'(Nat.sub_lt (blockSize_pos _) Nat.one_pos)).toNat
    let valid : Prop := 1 ≤ p ∧ p ≤ blockSize s.sAlg ∧
      ∀ i : Fin (blockSize s.sAlg), blockSize s.sAlg - p ≤ i.val → (y[i]).toNat = p
    let closed : State := { s with
      bf := BFSchedule.zero, tf := TFSchedule.zero, cv := Vector.replicate 16 0, dinbuf := Vector.replicate 16 0
      sAlg := .blowfish, sDir := .enc, sMode := .ecb, sessValid := false, busy := false, done := true }
    (valid → exec (.final 0) s = .next { closed with
      doutbuf := Vector.ofFn fun i =>
        if h : i.val < blockSize s.sAlg then (if i.val < blockSize s.sAlg - p then y[i.val] else 0) else 0
      nout := BitVec.ofNat 5 (blockSize s.sAlg - p), err := 0, detail := 0 }) ∧
    (¬ valid → exec (.final 0) s = .next { closed with
      doutbuf := Vector.replicate 16 0, nout := 0, err := 5, detail := 0, errf := true })

/-- R262, R263, R284 (step 4), R286: NBYTES ≥ bs in an encrypt session is InvalidBlockSize; NBYTES ≠ 0 in a decrypt
session is EncryptionFailed BAD_FIELD; the session closes and DOUT is zero. -/
def Obligations.FinalRejectsBadCounts : Prop :=
  ∀ (n : Nat) (s : State), s.sessValid = true →
    ((s.sDir = .enc ∧ blockSize s.sAlg ≤ n) ∨ (s.sDir = .dec ∧ n ≠ 0)) →
    exec (.final n) s = .next { s with
      bf := BFSchedule.zero, tf := TFSchedule.zero, cv := Vector.replicate 16 0, dinbuf := Vector.replicate 16 0
      sAlg := .blowfish, sDir := .enc, sMode := .ecb, sessValid := false
      doutbuf := Vector.replicate 16 0, nout := 0
      err := if s.sDir = .enc then 4 else 7
      detail := if s.sDir = .enc then 0 else 2
      errf := true, busy := false, done := true }

/-- The frame of every command: CTRL, OVR, LCMD, the agenda and the replies never change; IVBUF changes only by
ZEROIZE (R49) and KEYBUF only by KEYSCHED and ZEROIZE (R48); ERRF is set by an error and otherwise kept (R41); the
command ends with BUSY = 0 and DONE = 1 (R285, R286). -/
def Obligations.CommandFrame : Prop :=
  ∀ (i : Instr) (s : State), ∃ t, exec i s = .next t ∧
    t.ieDone = s.ieDone ∧ t.ieErr = s.ieErr ∧ t.ovr = s.ovr ∧ t.lcmd = s.lcmd ∧ t.agenda = s.agenda ∧
    t.replies = s.replies ∧ (i ≠ .zeroize → t.ivbuf = s.ivbuf) ∧
    (i ≠ .zeroize → (∀ alg dir mode keylen, i ≠ .keysched alg dir mode keylen) → t.keybuf = s.keybuf) ∧
    t.errf = (s.errf || decide (t.err ≠ 0)) ∧ t.busy = false ∧ t.done = true

/-- R328: every command but NOP rewrites DOUT: its output does not depend on what DOUT held. -/
def Obligations.OutputIsRewritten : Prop :=
  ∀ (i : Instr) (s : State) (d : Vector Byte 16), i ≠ .nop → exec i { s with doutbuf := d } = exec i s

/-! ## The ciphers -/

/-- R142 (round trip), R135, R136: BF_DecryptBlock undoes BF_EncryptBlock. -/
def Obligations.BlowfishBlocksInvert : Prop :=
  ∀ (sch : BFSchedule) (b : Vector Byte 8), bfDecryptBlock sch (bfEncryptBlock sch b) = b

/-- R187: TF_DecryptBlock undoes TF_EncryptBlock. -/
def Obligations.TwofishBlocksInvert : Prop :=
  ∀ (sch : TFSchedule) (b : Vector Byte 16), tfDecryptBlock sch (tfEncryptBlock sch b) = b

/-- R142: "Two keys whose cyclic repetitions to 72 bytes are equal give identical schedules". -/
def Obligations.EqualCyclicKeysEqualSchedules : Prop :=
  ∀ k1 k2 : List Byte, 4 ≤ k1.length → 4 ≤ k2.length →
    (∀ j < 72, k1[j % k1.length]? = k2[j % k2.length]?) → bfDeriveSchedule k1 = bfDeriveSchedule k2

/-- R139: the fill of the schedule is chained: 521 encryptions, the first of the all-zero block, each later one of the
previous output, each "with P and S as they stand now"; encryption k replaces the entries 2k and 2k + 1 of P for
k < 9, and those of S in sequence after that, two at a time, and no other entry; the schedule after the last is the
result. Its P[0] and P[1] are the first encryption. -/
def Obligations.FirstFillIsKept : Prop :=
  ∀ sch : BFSchedule,
    (∃ (lr : Nat → Word × Word) (t : Nat → BFSchedule),
      lr 0 = (0, 0) ∧ t 0 = sch ∧ bfFill sch = t 521 ∧
      (∀ k < 521, lr (k + 1) = bfEncHalves (t k) (lr k)) ∧
      (∀ k < 9, (t (k + 1)).s = (t k).s ∧ ∀ i : Fin 18, (t (k + 1)).p[i] =
        if i.val = 2 * k then (lr (k + 1)).1 else if i.val = 2 * k + 1 then (lr (k + 1)).2 else (t k).p[i]) ∧
      (∀ k < 512, (t (9 + k + 1)).p = (t (9 + k)).p ∧ ∀ (b : Fin 4) (j : Fin 256), (t (9 + k + 1)).s[b][j] =
        if 256 * b.val + j.val = 2 * k then (lr (9 + k + 1)).1
        else if 256 * b.val + j.val = 2 * k + 1 then (lr (9 + k + 1)).2 else (t (9 + k)).s[b][j])) ∧
    (bfFill sch).p[0] = (bfEncHalves sch (0, 0)).1 ∧ (bfFill sch).p[1] = (bfEncHalves sch (0, 0)).2

/-- R138: step 2 XORs the key, as big-endian words of its cyclic repetition, into P and leaves S alone. -/
def Obligations.KeyIsXoredIntoP : Prop :=
  ∀ (kb : List Byte) (sch : BFSchedule), (bfXorKey kb sch).s = sch.s ∧
    ∀ i : Fin 18, ∀ t : Fin 4,
      byteOf (bfXorKey kb sch).p[i] (3 - t.val) =
        byteOf sch.p[i] (3 - t.val) ^^^ kb.getD ((4 * i.val + t.val) % kb.length) 0

/-- R180, R181, R183, R184: the Twofish schedule of a key of 8k bytes, k = 2, 3 or 4: the subkey pairs are the
pseudo-Hadamard transform of A and B, SK[i] is RSMUL of key bytes 8i to 8i + 7, the SK words from k on are 0, and TK
is k. -/
def Obligations.TwofishScheduleFollowsItsRules : Prop :=
  ∀ (kb : List Byte) (k : Nat), (k = 2 ∨ k = 3 ∨ k = 4) → kb.length = 8 * k →
    let word : Nat → Word := fun j =>
      le32 (kb.getD (4 * j) 0) (kb.getD (4 * j + 1) 0) (kb.getD (4 * j + 2) 0) (kb.getD (4 * j + 3) 0)
    let me := if k = 2 then [word 0, word 2] else if k = 3 then [word 0, word 2, word 4]
      else [word 0, word 2, word 4, word 6]
    let mo := if k = 2 then [word 1, word 3] else if k = 3 then [word 1, word 3, word 5]
      else [word 1, word 3, word 5, word 7]
    (tfDeriveSchedule kb).tk = k ∧
    (∀ i : Fin 20,
      let a := hFun (BitVec.ofNat 32 (2 * i.val) * 0x01010101) me k
      let b := (hFun (BitVec.ofNat 32 (2 * i.val + 1) * 0x01010101) mo k).rotateLeft 8
      (tfDeriveSchedule kb).k[2 * i.val] = a + b ∧
      (tfDeriveSchedule kb).k[2 * i.val + 1] = (a + 2 * b).rotateLeft 9) ∧
    (∀ i : Fin 4, (tfDeriveSchedule kb).sk[i] =
      if i.val < k then rsMul ((kb.drop (8 * i.val)).take 8) else 0)

/-- R172, its corner cases and examples, for both polynomials. -/
def Obligations.GfMulCorners : Prop :=
  (∀ b : Byte, gfMul 0 b mdsPoly = 0 ∧ gfMul b 0 mdsPoly = 0 ∧ gfMul 1 b mdsPoly = b ∧
    gfMul 0 b rsPoly = 0 ∧ gfMul b 0 rsPoly = 0 ∧ gfMul 1 b rsPoly = b) ∧
  gfMul 0x02 0x80 mdsPoly = 0x69 ∧ gfMul 0x02 0x80 rsPoly = 0x4D

/-- R172: multiplication in GF(2^8) distributes over addition, which is XOR, in the matrix entry's factor. -/
def Obligations.GfMulDistributes : Prop :=
  ∀ (a b c : Byte) (poly : BitVec 9),
    gfMul a (b ^^^ c) poly = gfMul a b poly ^^^ gfMul a c poly

/-- R174: "Both are permutations of 0..255", with the examples. -/
def Obligations.QPermutationsAreInjective : Prop :=
  (∀ x y : Byte, q0 x = q0 y → x = y) ∧ (∀ x y : Byte, q1 x = q1 y → x = y) ∧ q0 0 = 0xA9 ∧ q1 0 = 0x75

/-! ## Padding, modes and messages -/

/-- R260, R264: the pad check accepts exactly the padded blocks. -/
def Obligations.PadCheckAcceptsPaddedBlocks : Prop :=
  ∀ (a : Alg) (y : Block a), padValid a y = true ↔ ∃ n, n < blockSize a ∧ y = padBlock a n y

/-- R234, R235: a block encrypted by BLOCK in one session and decrypted by BLOCK in a session with the same
algorithm, mode, schedule and chaining value is the block again, and the two sessions' chaining values are equal
afterwards too. -/
def Obligations.BlockRoundTrip : Prop :=
  ∀ s s' : State, s.sessValid = true → s'.sessValid = true → s.sDir = .enc → s'.sDir = .dec →
    s'.sAlg = s.sAlg → s'.sMode = s.sMode → s'.bf = s.bf → s'.tf = s.tf → s'.cv = s.cv →
    ∃ t, exec .block s = .next t ∧ (s'.dinbuf = t.doutbuf →
      ∃ t', exec .block s' = .next t' ∧
        (∀ i : Fin 16, i.val < blockSize s.sAlg → t'.doutbuf[i] = s.dinbuf[i]) ∧ t'.cv = t.cv)

/-- R262 to R265: the last block of a message: what FINAL n encrypted, FINAL in a decrypt session with the same
parameters gives back, with NOUT = n and zeros after the n bytes. -/
def Obligations.FinalRoundTrip : Prop :=
  ∀ (n : Nat) (s s' : State), s.sessValid = true → s'.sessValid = true → s.sDir = .enc → s'.sDir = .dec →
    s'.sAlg = s.sAlg → s'.sMode = s.sMode → s'.bf = s.bf → s'.tf = s.tf → s'.cv = s.cv → n < blockSize s.sAlg →
    ∃ t, exec (.final n) s = .next t ∧ (s'.dinbuf = t.doutbuf →
      ∃ t', exec (.final 0) s' = .next t' ∧ t'.err = 0 ∧ t'.nout.toNat = n ∧
        ∀ i : Fin 16, t'.doutbuf[i] = if i.val < n then s.dinbuf[i] else 0)

/-- R239, R267: the round-trip law of the host sequences R324 and R325: for a legal key, every message encrypts
from an idle engine to bs * (floor(L / bs) + 1) bytes, and decrypting them with the same parameters, from any idle
engine, gives the message. R268, R325: a ciphertext of length 0 or no multiple of bs fails with InvalidBlockSize,
whatever the parameters and the engine's state. That the sequences are functions over the port, with WAIT as the
point after the completion, is the model's choice (log 13). -/
def Obligations.MessageRoundTrip : Prop :=
  (∀ (alg : Nat) (mode : Mode) (kb iv m : List Byte) (s : State),
    ((alg = 0 ∧ 4 ≤ kb.length ∧ kb.length ≤ 56) ∨ (alg = 1 ∧ (kb.length = 16 ∨ kb.length = 24 ∨ kb.length = 32))) →
    iv.length = 16 → s.busy = false →
    ∃ t c, encryptMessage alg mode kb iv m s = .ok (t, c) ∧ t.busy = false ∧
      c.length = blockSize (algOf alg) * (m.length / blockSize (algOf alg) + 1) ∧
      ∀ u : State, u.busy = false → ∃ v, decryptMessage alg mode kb iv c u = .ok (v, m)) ∧
  (∀ (alg : Nat) (mode : Mode) (kb iv c : List Byte) (u : State),
    (c.length = 0 ∨ c.length % (if alg = 0 then 8 else 16) ≠ 0) →
    decryptMessage alg mode kb iv c u = .error .invalidBlockSize)

/-- R238: under ECB, identical input blocks give identical output blocks, whatever the rest of the state. -/
def Obligations.EcbRepeatsBlocks : Prop :=
  ∀ s s' : State, s.sessValid = true → s'.sessValid = true → s.sMode = .ecb → s'.sMode = .ecb →
    s'.sAlg = s.sAlg → s'.sDir = s.sDir → s'.bf = s.bf → s'.tf = s.tf →
    (∀ i : Fin 16, i.val < blockSize s.sAlg → s'.dinbuf[i] = s.dinbuf[i]) →
    ∃ t t', exec .block s = .next t ∧ exec .block s' = .next t' ∧ t'.doutbuf = t.doutbuf

/-- R142, R228, R262 and R50, R51: what a command ignores: KEYBUF[KEYLEN..55] at KEYSCHED, DINBUF[n..15] at an
encrypt FINAL n, and DINBUF[8..15] and CV[8..15] at BLOCK in a Blowfish session. -/
def Obligations.IgnoredBytesDoNotMatter : Prop :=
  (∀ (alg keylen : Nat) (dir : Dir) (mode : Mode) (s : State) (k : Vector Byte 56),
    (∀ i : Fin 56, i.val < keylen → k[i] = s.keybuf[i]) →
    exec (.keysched alg dir mode keylen) { s with keybuf := k } = exec (.keysched alg dir mode keylen) s) ∧
  (∀ (n : Nat) (s : State) (d : Vector Byte 16), s.sessValid = true → s.sDir = .enc → n < blockSize s.sAlg →
    (∀ i : Fin 16, i.val < n → d[i] = s.dinbuf[i]) → exec (.final n) { s with dinbuf := d } = exec (.final n) s) ∧
  (∀ (s : State) (d ch : Vector Byte 16), s.sessValid = true → s.sAlg = .blowfish →
    (∀ i : Fin 16, i.val < 8 → d[i] = s.dinbuf[i] ∧ ch[i] = s.cv[i]) →
    ∃ t t', exec .block s = .next t ∧ exec .block { s with dinbuf := d, cv := ch } = .next t' ∧
      t'.doutbuf = t.doutbuf)

/-! ## The register window and the port -/

/-- R73, R74, R287, R294: a refused access, of any master that reaches the window, answers a bus error and changes
nothing else: no STATUS bit, no interrupt. That the machine goes on and keeps the answer in a list of replies is the
model's deduction (log 3), the agenda its choice (log 1). -/
def Obligations.RefusedAccessChangesNothing : Prop :=
  ∀ (s : State) (a : BusAccess) (rest : List Event),
    s.agenda = .access a :: rest → mayReach a.master = true → Config.base ≤ a.addr → a.addr < Config.base + 4096 →
    (a.size ≠ 4 ∨ (a.addr - Config.base) % 4 ≠ 0) →
    step s = .next { s with agenda := rest, replies := (a.master, .busError) :: s.replies }

/-- R71, R76, R77, R81, R294: an admitted access, of any master that reaches the window, is performed whole, at its
place in the order. A read answers the register's value and changes nothing else (R76: no read has a side effect); a
write does what its register's rule says; that it is answered with the reply written is the model's deduction (log 7).
The agenda and the list of replies are the model's form (log 1, log 3). -/
def Obligations.AdmittedAccessIsPerformed : Prop :=
  ∀ (s : State) (m : Master) (off : Nat) (rest : List Event), mayReach m = true → off < 4096 → off % 4 = 0 →
    (s.agenda = .access { master := m, addr := Config.base + off, size := 4, kind := .read } :: rest →
      step s = .next { s with
        agenda := rest, replies := (m, .data (regRead (regAt off) { s with agenda := rest })) :: s.replies }) ∧
    (∀ v : Word,
      s.agenda = .access { master := m, addr := Config.base + off, size := 4, kind := .write v } :: rest →
      step s = .next { regWrite (regAt off) v { s with agenda := rest } with
        replies := (m, .written) :: s.replies })

/-- R71: an access outside the window does not reach the engine and leaves it alone; that the master gets a reply of
its own then is the model's choice (log 4). -/
def Obligations.ForeignAccessLeavesTheEngine : Prop :=
  ∀ (s : State) (a : BusAccess) (rest : List Event),
    s.agenda = .access a :: rest → (a.addr < Config.base ∨ Config.base + 4096 ≤ a.addr) →
    step s = .next { s with agenda := rest, replies := (a.master, .notReached) :: s.replies }

/-- R33: a 4-byte aligned read of a reserved offset returns 0 and changes nothing; a write to one is ignored and
changes nothing. That an ignored write is answered with the reply written is the model's deduction (log 7). -/
def Obligations.ReservedOffsetsAreInert : Prop :=
  ∀ (off : Nat) (v : Word) (s : State), off % 4 = 0 →
    ((0x01C ≤ off ∧ off ≤ 0x03C) ∨ (0x078 ≤ off ∧ off ≤ 0x07C) ∨ (0x0B0 ≤ off ∧ off ≤ 0xFFC)) →
    windowAccess off 4 .read s = (s, .data 0x00000000) ∧ windowAccess off 4 (.write v) s = (s, .written)

/-- R34: writes to ID, VERSION, SESSION, RESULT and DOUT0-DOUT3 change nothing; reads of CMD and KEY0-KEY13 return
0 and change nothing; the reserved bits of CTRL, STATUS, SESSION and RESULT read 0, and writing them (in CTRL and
STATUS) changes nothing. That an ignored write is answered with the reply written is the model's deduction (log 7). -/
def Obligations.AccessTypesHold : Prop :=
  ∀ (off : Nat) (v : Word) (s : State), off % 4 = 0 →
    ((off = 0x000 ∨ off = 0x004 ∨ off = 0x014 ∨ off = 0x018 ∨ (0x0A0 ≤ off ∧ off ≤ 0x0AC)) →
      windowAccess off 4 (.write v) s = (s, .written)) ∧
    ((off = 0x010 ∨ (0x040 ≤ off ∧ off ≤ 0x074)) → windowAccess off 4 .read s = (s, .data 0)) ∧
    regRead .ctrl s &&& 0xFFFFFFFC = 0 ∧ regRead .status s &&& 0xFF00F0E0 = 0 ∧
    regRead .session s &&& 0xFFFFE0F0 = 0 ∧ regRead .result s &&& 0xFFFFFFE0 = 0 ∧
    regWrite .ctrl v s = regWrite .ctrl (v &&& 0x00000003) s ∧
    regWrite .status v s = regWrite .status (v &&& 0x0000000E) s

/-- R38, R44: STATUS reads its fields at their places; R37: CTRL reads IE_DONE in bit 0, IE_ERR in bit 1 and 0
elsewhere. No read changes anything. -/
def Obligations.StatusReadsItsFields : Prop :=
  ∀ s : State, let w := regRead .status s; let c := regRead .ctrl s
    windowAccess 0x00C 4 .read s = (s, .data w) ∧
    w.getLsbD 0 = s.busy ∧ w.getLsbD 1 = s.done ∧ w.getLsbD 2 = s.errf ∧ w.getLsbD 3 = s.ovr ∧
    w.getLsbD 4 = s.sessValid ∧ w.extractLsb' 8 4 = s.err ∧ w.extractLsb' 16 8 = s.detail ∧
    windowAccess 0x008 4 .read s = (s, .data c) ∧
    c.getLsbD 0 = s.ieDone ∧ c.getLsbD 1 = s.ieErr ∧ c.extractLsb' 2 30 = 0

/-- R46: SESSION shows the open session's parameters, and 0 when none is open. -/
def Obligations.SessionReadsItsFields : Prop :=
  ∀ s : State, let w := regRead .session s
    windowAccess 0x014 4 .read s = (s, .data w) ∧
    (s.sessValid = true →
      w.extractLsb' 0 2 = (match s.sAlg with | .blowfish => 0 | .twofish => 1) ∧
      w.getLsbD 2 = decide (s.sDir = .dec) ∧ w.getLsbD 3 = decide (s.sMode = .cbc) ∧ w.extractLsb' 4 4 = 0 ∧
      w.extractLsb' 8 5 = (match s.sAlg with | .blowfish => 8 | .twofish => 16) ∧ w.extractLsb' 13 19 = 0) ∧
    (s.sessValid = false → w = 0)

/-- R35, R36: ID and VERSION always read their values; R47: RESULT reads NOUT in bits 4:0 and 0 elsewhere; R52, R72:
DOUTn reads DOUTBUF[4n + j] in bits [8j+7:8j]. No read changes anything. -/
def Obligations.IdentityAndResultReads : Prop :=
  ∀ s : State, windowAccess 0x000 4 .read s = (s, .data 0x42465446) ∧
    windowAccess 0x004 4 .read s = (s, .data 0x00010000) ∧
    windowAccess 0x018 4 .read s = (s, .data (regRead .result s)) ∧
    (regRead .result s).extractLsb' 0 5 = s.nout ∧ (regRead .result s).extractLsb' 5 27 = 0 ∧
    ∀ n : Fin 4, windowAccess (0x0A0 + 4 * n.val) 4 .read s = (s, .data (regRead (.dout n) s)) ∧
      ∀ j : Fin 4, (regRead (.dout n) s).extractLsb' (8 * j.val) 8 = s.doutbuf[4 * n.val + j.val]

/-- R48, R72: a KEYn write while BUSY = 0 stores `KEYBUF[4n + j] <- v[8j+7:8j]` and nothing else. That the
write is answered with the reply written is the model's deduction (log 7). -/
def Obligations.KeyWriteFillsItsLanes : Prop :=
  ∀ (n : Fin 14) (v : Word) (s : State), s.busy = false →
    ∃ kb, windowAccess (0x040 + 4 * n.val) 4 (.write v) s = ({ s with keybuf := kb }, .written) ∧
      ∀ i : Fin 56, kb[i] = if i.val / 4 = n.val then v.extractLsb' (8 * (i.val % 4)) 8 else s.keybuf[i]

/-- R49, R50, R72: an IVn or DINn write while BUSY = 0 stores its word and nothing else: `IVBUF[4n + j] <- v[8j+7:8j]`
or `DINBUF[4n + j] <- v[8j+7:8j]`; that register then reads the word, and the other words of the buffer are as they
were. That the write is answered with the reply written is the model's deduction (log 7). -/
def Obligations.DataWritesReadBack : Prop :=
  ∀ (n : Fin 4) (v : Word) (s : State), s.busy = false →
    (∃ b, windowAccess (0x080 + 4 * n.val) 4 (.write v) s = ({ s with ivbuf := b }, .written) ∧
      (∀ i : Fin 16, b[i] = if i.val / 4 = n.val then v.extractLsb' (8 * (i.val % 4)) 8 else s.ivbuf[i]) ∧
      ∀ m : Fin 4, windowAccess (0x080 + 4 * m.val) 4 .read { s with ivbuf := b } =
        ({ s with ivbuf := b }, .data (if m = n then v else regRead (.iv m) s))) ∧
    (∃ b, windowAccess (0x090 + 4 * n.val) 4 (.write v) s = ({ s with dinbuf := b }, .written) ∧
      (∀ i : Fin 16, b[i] = if i.val / 4 = n.val then v.extractLsb' (8 * (i.val % 4)) 8 else s.dinbuf[i]) ∧
      ∀ m : Fin 4, windowAccess (0x090 + 4 * m.val) 4 .read { s with dinbuf := b } =
        ({ s with dinbuf := b }, .data (if m = n then v else regRead (.din m) s)))

/-- R42, R288, R327: a write to CMD, KEYn, IVn or DINn while BUSY = 1 is dropped and sets OVR, and nothing else.
That a dropped write is answered with the reply written is the model's deduction (log 7). -/
def Obligations.BusyDropsWrites : Prop :=
  ∀ (off : Nat) (v : Word) (s : State), s.busy = true → off % 4 = 0 →
    (off = 0x010 ∨ (0x040 ≤ off ∧ off ≤ 0x074) ∨ (0x080 ≤ off ∧ off ≤ 0x09C)) →
    windowAccess off 4 (.write v) s = ({ s with ovr := true }, .written)

/-- R37, R38, R327: CTRL and STATUS writes take effect at once, whether or not the engine is busy: CTRL stores its
two bits; STATUS clears the bits written as 1 among DONE, ERRF and OVR; nothing else changes.
That the write is answered with the reply written is the model's deduction (log 7). -/
def Obligations.ControlWritesAlwaysTake : Prop :=
  ∀ (v : Word) (s : State),
    windowAccess 0x008 4 (.write v) s = ({ s with ieDone := v.getLsbD 0, ieErr := v.getLsbD 1 }, .written) ∧
    windowAccess 0x00C 4 (.write v) s = ({ s with
      done := if v.getLsbD 1 then false else s.done
      errf := if v.getLsbD 2 then false else s.errf
      ovr := if v.getLsbD 3 then false else s.ovr }, .written)

/-- R223: a CMD write is accepted while BUSY = 0 and dropped while BUSY = 1. That either is answered with the
reply written is the model's deduction (log 7). -/
def Obligations.CmdWriteIssues : Prop :=
  ∀ (v : Word) (s : State), windowAccess 0x010 4 (.write v) s =
    (if s.busy then { s with ovr := true } else { s with lcmd := v, busy := true, done := false }, .written)

/-- R289, R290: the interrupt output, and the four ways to deassert it: a W1C write of the asserting bits, a CTRL
write that clears the enables of the asserting bits, the acceptance of a command (ERRF stays), and reset. -/
def Obligations.IrqFollowsFlags : Prop :=
  ∀ (s : State) (v : Word),
    (irq s = true ↔ (s.done = true ∧ s.ieDone = true) ∨ (s.errf = true ∧ s.ieErr = true)) ∧
    ((s.done = true → s.ieDone = true → v.getLsbD 1 = true) → (s.errf = true → s.ieErr = true → v.getLsbD 2 = true) →
      irq (windowAccess 0x00C 4 (.write v) s).1 = false) ∧
    ((s.done = true → v.getLsbD 0 = false) → (s.errf = true → v.getLsbD 1 = false) →
      irq (windowAccess 0x008 4 (.write v) s).1 = false) ∧
    (s.busy = false → irq (windowAccess 0x010 4 (.write v) s).1 = (s.errf && s.ieErr)) ∧
    (∀ rest, s.agenda = .resetPulse :: rest → ∃ t, step s = .next t ∧ irq t = false)

/-! ## Rules of the whole machine -/

/-- The invariant holds right after reset. -/
def Obligations.InvariantAtReset : Prop := Inv State.reset

/-- The invariant is kept by every step, whatever the agenda holds. -/
def Obligations.InvariantKept : Prop :=
  ∀ s t : State, Inv s → step s = .next t → Inv t

/-- R44, R47, R52, R78, R332: between completions nothing a command writes changes: a host access changes none of
ERR, DETAIL, NOUT, DOUTBUF, the session, CV or the schedules. -/
def Obligations.AccessesLeaveResults : Prop :=
  ∀ (s : State) (a : BusAccess) (rest : List Event), s.agenda = .access a :: rest →
    ∃ t, step s = .next t ∧ t.err = s.err ∧ t.detail = s.detail ∧ t.nout = s.nout ∧ t.doutbuf = s.doutbuf ∧
      t.sessValid = s.sessValid ∧ t.sAlg = s.sAlg ∧ t.sDir = s.sDir ∧ t.sMode = s.sMode ∧ t.cv = s.cv ∧
      t.bf = s.bf ∧ t.tf = s.tf

/-- R53, R54, R48, R51, R45, R298: what is hidden stays hidden: neither the answer to any access nor the IRQ output
depends on KEYBUF, CV, LCMD or the schedules. -/
def Obligations.SecretsAreNotReadable : Prop :=
  ∀ (s : State) (a : BusAccess) (kb : Vector Byte 56) (cv : Vector Byte 16) (w : Word) (bf : BFSchedule)
    (tf : TFSchedule),
    let s' : State := { s with keybuf := kb, cv := cv, lcmd := w, bf := bf, tf := tf }
    (portAccess a s').2 = (portAccess a s).2 ∧ irq (portAccess a s').1 = irq (portAccess a s).1

/-- R82, R327: CTRL and the writable bits of STATUS (DONE, ERRF, OVR) feed no command: with other values of these bits,
the same command gives the same state but for those bits. (SESS_VALID, STATUS bit 4, does feed BLOCK and FINAL.) -/
def Obligations.ControlBitsDoNotFeedCommands : Prop :=
  ∀ (i : Instr) (s : State) (a b c d e : Bool), ∃ t, exec i s = .next t ∧
    exec i { s with ieDone := a, ieErr := b, ovr := c, done := d, errf := e } =
      .next { t with ieDone := a, ieErr := b, ovr := c, errf := e || decide (t.err ≠ 0) }

/-- R43, R55: a session opens only by a KEYSCHED with a known algorithm and a legal key length. -/
def Obligations.OnlyKeyschedOpensASession : Prop :=
  ∀ s t : State, step s = .next t → s.sessValid = false → t.sessValid = true →
    s.busy = true ∧ ∃ alg dir mode keylen, decode s.lcmd = .ok (.keysched alg dir mode keylen) ∧
      ((alg = 0 ∧ 4 ≤ keylen ∧ keylen ≤ 56) ∨ (alg = 1 ∧ (keylen = 16 ∨ keylen = 24 ∨ keylen = 32))) ∧
      algBits t.sAlg = BitVec.ofNat 2 alg ∧ t.sDir = dir ∧ t.sMode = mode

/-- R221, R286: a completion that reports an error leaves no session, no output and ERRF set. The agenda, and that the
command completes where it is empty, are the model's choice (log 1). -/
def Obligations.ErrorsCloseTheSession : Prop :=
  ∀ s t : State, s.busy = true → (s.agenda = [] ∨ ∃ rest, s.agenda = .completion :: rest) → step s = .next t →
    t.err ≠ 0 →
    t.sessValid = false ∧ t.doutbuf = Vector.replicate 16 0 ∧ t.nout = 0 ∧ t.errf = true ∧ t.busy = false ∧
      t.done = true

/-- R41, R42: ERRF is set by every completion with ERR ≠ 0 and OVR by a dropped write; each is cleared only by a W1C
write of its bit or by reset, and a completion that succeeds clears neither. The agenda, and that the command completes
where it is empty, are the model's choice (log 1). -/
def Obligations.ErrfAndOvrAreSticky : Prop :=
  ∀ s t : State, step s = .next t →
    (s.errf = true → t.errf = false →
      (∃ rest, s.agenda = .resetPulse :: rest) ∨
      (∃ a rest v, s.agenda = .access a :: rest ∧ a.kind = .write v ∧ a.size = 4 ∧ a.addr = Config.base + 0x00C ∧
        v.getLsbD 2 = true)) ∧
    (s.errf = false → t.errf = true → s.busy = true ∧ t.busy = false ∧ t.err ≠ 0) ∧
    (s.busy = true → (s.agenda = [] ∨ ∃ rest, s.agenda = .completion :: rest) →
      t.errf = (s.errf || decide (t.err ≠ 0))) ∧
    (s.ovr = true → t.ovr = false →
      (∃ rest, s.agenda = .resetPulse :: rest) ∨
      (∃ a rest v, s.agenda = .access a :: rest ∧ a.kind = .write v ∧ a.size = 4 ∧ a.addr = Config.base + 0x00C ∧
        v.getLsbD 3 = true)) ∧
    (s.ovr = false → t.ovr = true → s.busy = true ∧ ∃ a rest v, s.agenda = .access a :: rest ∧ a.kind = .write v)
end

