-- ==== Sys2Proof/Laws/Bytes.lean ====
section
/-! SUPPORT. What the byte operations read back: words and their bytes, parts and overlays of buffers, lanes. -/

namespace Sys2Proof.Machine

theorem byteOf_getLsbD (x : Word) (j i : Nat) :
    (byteOf x j).getLsbD i = (decide (i < 8) && x.getLsbD (8 * j + i)) := by
  simp [byteOf, BitVec.getLsbD_extractLsb']

theorem byteOf_xor (x y : Word) (j : Nat) : byteOf (x ^^^ y) j = byteOf x j ^^^ byteOf y j := by
  simp [byteOf, BitVec.extractLsb'_xor]

theorem le32_getLsbD (b0 b1 b2 b3 : Byte) (i : Nat) :
    (le32 b0 b1 b2 b3).getLsbD i =
      if i < 8 then b0.getLsbD i else if i < 16 then b1.getLsbD (i - 8)
      else if i < 24 then b2.getLsbD (i - 16) else b3.getLsbD (i - 24) := by
  have e1 : i - 8 - 8 = i - 16 := by omega
  have e2 : i - 16 - 8 = i - 24 := by omega
  have c1 : ¬ i < 8 → (i - 8 < 8 ↔ i < 16) := by omega
  have c2 : ¬ i < 16 → (i - 16 < 8 ↔ i < 24) := by omega
  simp only [le32, BitVec.getLsbD_append, e1, e2]
  by_cases h1 : i < 8
  · simp only [h1, if_true]
  · by_cases h2 : i < 16
    · simp only [h1, h2, c1 h1, if_true, if_false]
    · by_cases h3 : i < 24 <;> simp only [h1, h2, h3, c1 h1, c2 h2, if_true, if_false]

@[simp] theorem byteOf_le32_0 (b0 b1 b2 b3 : Byte) : byteOf (le32 b0 b1 b2 b3) 0 = b0 := by
  apply BitVec.eq_of_getLsbD_eq
  intro i hi
  rw [byteOf_getLsbD, le32_getLsbD, show 8 * 0 + i = i by omega]
  simp only [hi, decide_true, Bool.true_and, if_true]

@[simp] theorem byteOf_le32_1 (b0 b1 b2 b3 : Byte) : byteOf (le32 b0 b1 b2 b3) 1 = b1 := by
  apply BitVec.eq_of_getLsbD_eq
  intro i hi
  rw [byteOf_getLsbD, le32_getLsbD, show 8 * 1 + i = 8 + i by omega]
  simp only [hi, show ¬ 8 + i < 8 by omega, show 8 + i < 16 by omega, show 8 + i - 8 = i by omega, decide_true, Bool.true_and, if_true, if_false]

@[simp] theorem byteOf_le32_2 (b0 b1 b2 b3 : Byte) : byteOf (le32 b0 b1 b2 b3) 2 = b2 := by
  apply BitVec.eq_of_getLsbD_eq
  intro i hi
  rw [byteOf_getLsbD, le32_getLsbD, show 8 * 2 + i = 16 + i by omega]
  simp only [hi, show ¬ 16 + i < 8 by omega, show ¬ 16 + i < 16 by omega, show 16 + i < 24 by omega, show 16 + i - 16 = i by omega, decide_true, Bool.true_and, if_true, if_false]

@[simp] theorem byteOf_le32_3 (b0 b1 b2 b3 : Byte) : byteOf (le32 b0 b1 b2 b3) 3 = b3 := by
  apply BitVec.eq_of_getLsbD_eq
  intro i hi
  rw [byteOf_getLsbD, le32_getLsbD, show 8 * 3 + i = 24 + i by omega]
  simp only [hi, show ¬ 24 + i < 8 by omega, show ¬ 24 + i < 16 by omega, show ¬ 24 + i < 24 by omega, show 24 + i - 24 = i by omega,
    decide_true, Bool.true_and, if_false]

/-- R10: LE_BYTES is the inverse of LE32. -/
@[simp] theorem le32_byteOf (x : Word) : le32 (byteOf x 0) (byteOf x 1) (byteOf x 2) (byteOf x 3) = x := by
  apply BitVec.eq_of_getLsbD_eq
  intro i hi
  rw [le32_getLsbD]
  simp only [byteOf_getLsbD]
  split
  · simp [show i < 8 by omega]
  · split
    · simp [show i - 8 < 8 by omega, show 8 + (i - 8) = i by omega]
    · split
      · simp [show i - 16 < 8 by omega, show 16 + (i - 16) = i by omega]
      · simp [show i - 24 < 8 by omega, show 24 + (i - 24) = i by omega]

/-- R10: BE32 is LE32 of the bytes in the other order. -/
theorem be32_eq_le32 (b0 b1 b2 b3 : Byte) : be32 b0 b1 b2 b3 = le32 b3 b2 b1 b0 := rfl

@[simp] theorem takeBytes_getElem {m n : Nat} (h : n ≤ m) (b : Vector Byte m) (i : Nat) (hi : i < n) :
    (takeBytes n h b)[i] = b[i] := by simp [takeBytes]

@[simp] theorem overlayBytes_getElem {m n : Nat} (y : Vector Byte n) (b : Vector Byte m) (i : Nat) (hi : i < m) :
    (overlayBytes y b)[i] = if h : i < n then y[i] else b[i] := by simp [overlayBytes]

@[simp] theorem xorBytes_getElem {n : Nat} (x y : Vector Byte n) (i : Nat) (hi : i < n) :
    (xorBytes x y)[i] = x[i] ^^^ y[i] := by simp [xorBytes]

theorem takeBytes_eq_ofFn {m n : Nat} (h : n ≤ m) (b : Vector Byte m) :
    takeBytes n h b = Vector.ofFn fun i => b[i.val]'(Nat.lt_of_lt_of_le i.isLt h) := rfl

theorem overlayBytes_eq_ofFn {m n : Nat} (y : Vector Byte n) (b : Vector Byte m) :
    overlayBytes y b = Vector.ofFn fun i => if h : i.val < n then y[i.val] else b[i] := rfl

theorem xorBytes_eq_ofFn {n : Nat} (x y : Vector Byte n) : xorBytes x y = Vector.ofFn fun i => x[i] ^^^ y[i] := by
  apply Vector.ext
  intro i hi
  simp

@[simp] theorem zeroBytes_getElem (n i : Nat) (hi : i < n) : (zeroBytes n)[i] = 0 := by simp [zeroBytes]

theorem overlayBytes_zeroBytes {m n : Nat} (y : Vector Byte n) :
    overlayBytes y (zeroBytes m) = Vector.ofFn fun i => if h : i.val < n then y[i.val] else 0 := by
  apply Vector.ext
  intro i hi
  simp

/-- All of a buffer. -/
@[simp] theorem takeBytes_self {m : Nat} (h : m ≤ m) (b : Vector Byte m) : takeBytes m h b = b := by
  apply Vector.ext
  intro i hi
  simp

/-- An overlay as long as the buffer. -/
@[simp] theorem overlayBytes_self {m : Nat} (y b : Vector Byte m) : overlayBytes y b = y := by
  apply Vector.ext
  intro i hi
  simp [hi]

/-- Overlaying a buffer with its own first bytes changes nothing. -/
@[simp] theorem overlayBytes_takeBytes {m n : Nat} (h : n ≤ m) (b : Vector Byte m) :
    overlayBytes (takeBytes n h b) b = b := by
  apply Vector.ext
  intro i hi
  simp

/-- The first bytes of an overlaid buffer are the overlay. -/
@[simp] theorem takeBytes_overlayBytes {m n : Nat} (h : n ≤ m) (y : Vector Byte n) (b : Vector Byte m) :
    takeBytes n h (overlayBytes y b) = y := by
  apply Vector.ext
  intro i hi
  simp [hi]

/-- R234, R235: XOR with the same bytes twice is nothing. -/
@[simp] theorem xorBytes_xorBytes {n : Nat} (x y : Vector Byte n) : xorBytes (xorBytes x y) y = x := by
  apply Vector.ext
  intro i hi
  simp

@[simp] theorem writeLane_getElem {m : Nat} (b : Vector Byte m) (n : Nat) (v : Word) (i : Nat) (hi : i < m) :
    (writeLane b n v)[i] = if i / 4 = n then byteOf v (i % 4) else b[i] := by simp [writeLane]

theorem getD_of_lt {m : Nat} (b : Vector Byte m) (i : Nat) (hi : i < m) (d : Byte) : b.getD i d = b[i] := by
  simp [Vector.getD, hi]

/-- R72: the word of register n by its four bytes. -/
theorem readLane_eq {m : Nat} (b : Vector Byte m) (n : Nat) (h : 4 * n + 3 < m) :
    readLane b n = le32 b[4 * n] b[4 * n + 1] b[4 * n + 2] b[4 * n + 3] := by
  simp only [readLane]
  rw [getD_of_lt b _ (by omega), getD_of_lt b _ (by omega), getD_of_lt b _ (by omega), getD_of_lt b _ h]

/-- R72: a register reads back the word written to it. -/
theorem readLane_writeLane_same {m : Nat} (b : Vector Byte m) (n : Nat) (v : Word) (h : 4 * n + 3 < m) :
    readLane (writeLane b n v) n = v := by
  rw [readLane_eq _ _ h]
  simp [show 4 * n / 4 = n by omega, show (4 * n + 1) / 4 = n by omega, show (4 * n + 2) / 4 = n by omega,
    show (4 * n + 3) / 4 = n by omega, show 4 * n % 4 = 0 by omega, show (4 * n + 1) % 4 = 1 by omega,
    show (4 * n + 2) % 4 = 2 by omega, show (4 * n + 3) % 4 = 3 by omega]

/-- R72: a write to one register leaves the others. -/
theorem readLane_writeLane_other {m : Nat} (b : Vector Byte m) (n k : Nat) (v : Word) (h : 4 * k + 3 < m)
    (hk : k ≠ n) : readLane (writeLane b n v) k = readLane b k := by
  rw [readLane_eq _ _ h, readLane_eq _ _ h]
  simp [show 4 * k / 4 = k by omega, show (4 * k + 1) / 4 = k by omega, show (4 * k + 2) / 4 = k by omega,
    show (4 * k + 3) / 4 = k by omega, hk]

end Sys2Proof.Machine
end

