-- ==== Sys2Proof/Laws/Ciphers.lean ====
section
/-! SUPPORT. The pieces of the two ciphers that undo each other, the fill of the Blowfish schedule as one
row of encryptions, and the additivity of the field multiplication. -/

namespace Sys2Proof.Machine

/-! ### Blocks as words (R131, R171) -/

/-- R131: an output pair as `BE_BYTES(L) || BE_BYTES(R)`. -/
theorem bfBytes_eq_beBytes (lr : Word × Word) :
    (bfBytes lr).toList = (beBytes lr.1).toList ++ (beBytes lr.2).toList := rfl

@[simp] theorem bfHalves_bfBytes (lr : Word × Word) : bfHalves (bfBytes lr) = lr := by
  simp [bfHalves, bfBytes, be32_eq_le32]

@[simp] theorem bfBytes_bfHalves (b : Vector Byte 8) : bfBytes (bfHalves b) = b := by
  apply Vector.ext
  intro i hi
  rcases i with _ | _ | _ | _ | _ | _ | _ | _ | i
  all_goals first
    | (simp [bfHalves, bfBytes, be32_eq_le32]; done)
    | omega

@[simp] theorem tfWords_tfBytes (w : TFWords) : tfWords (tfBytes w) = w := by
  simp [tfWords, tfBytes]

@[simp] theorem tfBytes_tfWords (b : Vector Byte 16) : tfBytes (tfWords b) = b := by
  apply Vector.ext
  intro i hi
  rcases i with _ | _ | _ | _ | _ | _ | _ | _ | _ | _ | _ | _ | _ | _ | _ | _ | i
  all_goals first
    | (simp [tfWords, tfBytes]; done)
    | omega

/-! ### Blowfish rounds (R133, R134) -/

/-- R133, R134: the last swap undone and the two output entries XORed in. -/
theorem bfNetwork_eq (sch : BFSchedule) (is : List Nat) (a b : Nat) (lr : Word × Word) :
    bfNetwork sch is a b lr =
      ((is.foldl (bfRound sch) lr).2 ^^^ bfP sch b, (is.foldl (bfRound sch) lr).1 ^^^ bfP sch a) := rfl

/-- Where decryption stands when it still has the rounds before entry k to undo: the halves exchanged, with the
entries k and k + 1 on them. -/
def bfCrossed (sch : BFSchedule) (k : Nat) (lr : Word × Word) : Word × Word :=
  (lr.2 ^^^ bfP sch (k + 1), lr.1 ^^^ bfP sch k)

/-- R134: the round with entry k + 2 takes the crossed output of the round with entry k to its crossed input. -/
theorem bfRound_bfCrossed (sch : BFSchedule) (k : Nat) (lr : Word × Word) :
    bfRound sch (bfCrossed sch (k + 1) (bfRound sch lr k)) (k + 2) = bfCrossed sch k lr := by
  simp [bfRound, bfCrossed, BitVec.xor_assoc]

/-! ### Blowfish key schedule (R138) -/

@[simp] theorem bfXorKey_s (kb : List Byte) (sch : BFSchedule) : (bfXorKey kb sch).s = sch.s := by simp only [bfXorKey]

@[simp] theorem bfXorKey_p (kb : List Byte) (sch : BFSchedule) (i : Nat) (hi : i < 18) :
    (bfXorKey kb sch).p[i] = sch.p[i] ^^^ bfKeyWord kb i := by simp [bfXorKey]

/-- R138: the schedule depends on the key only through its first 72 cyclic bytes. -/
theorem bfKeyWord_congr {k1 k2 : List Byte} (h : ∀ j < 72, cyclicKeyByte k1 j = cyclicKeyByte k2 j) (i : Nat)
    (hi : i < 18) : bfKeyWord k1 i = bfKeyWord k2 i := by
  simp only [bfKeyWord, h (4 * i) (by omega), h (4 * i + 1) (by omega), h (4 * i + 2) (by omega),
    h (4 * i + 3) (by omega)]

theorem bfXorKey_congr {k1 k2 : List Byte} (h : ∀ j < 72, cyclicKeyByte k1 j = cyclicKeyByte k2 j)
    (sch : BFSchedule) : bfXorKey k1 sch = bfXorKey k2 sch := by
  simp only [bfXorKey, BFSchedule.mk.injEq, and_true]
  apply Vector.ext
  intro i hi
  simp only [Vector.getElem_ofFn, bfKeyWord_congr h i hi]

/-! ### The fill of the Blowfish schedule (R139) -/

/-- R139: `P[i] <- L ; P[i+1] <- R`. -/
theorem bfSetP_getElem (sch : BFSchedule) (i : Nat) (lr : Word × Word) (x : Fin 18) :
    (bfSetP sch i lr).p[x] = if x.val = i then lr.1 else if x.val = i + 1 then lr.2 else sch.p[x] := by
  simp only [bfSetP, Fin.getElem_fin, Vector.getElem_setIfInBounds]
  repeat' split
  all_goals first | rfl | omega

@[simp] theorem bfSetP_s (sch : BFSchedule) (i : Nat) (lr : Word × Word) : (bfSetP sch i lr).s = sch.s := rfl

/-- R139: `S[b][j] <- L ; S[b][j+1] <- R`. -/
theorem bfSetS_getElem (sch : BFSchedule) (b : Fin 4) (j : Nat) (lr : Word × Word) (b' : Fin 4) (x : Fin 256) :
    (bfSetS sch b j lr).s[b'][x] =
      if b = b' then (if x.val = j then lr.1 else if x.val = j + 1 then lr.2 else sch.s[b'][x]) else sch.s[b'][x] := by
  by_cases h : b = b'
  · subst h
    simp only [bfSetS, Fin.getElem_fin, Vector.getElem_set_self, Vector.getElem_setIfInBounds, if_true]
    repeat' split
    all_goals first | rfl | omega
  · have h' : b.val ≠ b'.val := fun e => h (Fin.ext e)
    simp only [bfSetS, Fin.getElem_fin, Vector.getElem_set_ne _ _ h', if_neg h]

@[simp] theorem bfSetS_p (sch : BFSchedule) (b : Fin 4) (j : Nat) (lr : Word × Word) : (bfSetS sch b j lr).p = sch.p := rfl

/-- The fill, opened. (bfFill has no equation lemma of its own: `unfold` opens it, `rw` does not.) -/
theorem bfFill_eq (sch : BFSchedule) :
    bfFill sch = ([0, 1, 2, 3].foldl bfFillBox ((List.range 9).foldl bfFillP ((0, 0), sch))).2 := by
  unfold bfFill
  rfl

/-- R139: encryption k of the 521: the fill of P for k < 9, then that of S in sequence. -/
def bfFillStep (c : (Word × Word) × BFSchedule) (k : Nat) : (Word × Word) × BFSchedule :=
  if k < 9 then bfFillP c k else bfFillS (Fin.ofNat 4 ((k - 9) / 128)) c ((k - 9) % 128)

theorem bfFillStep_p {k : Nat} (h : k < 9) (c : (Word × Word) × BFSchedule) : bfFillStep c k = bfFillP c k := if_pos h

theorem bfFillStep_s {k : Nat} (h : k < 512) (c : (Word × Word) × BFSchedule) :
    bfFillStep c (9 + k) = bfFillS ⟨k / 128, by omega⟩ c (k % 128) := by
  rw [bfFillStep, if_neg (by omega), Nat.add_sub_cancel_left]
  congr 1
  apply Fin.ext
  show k / 128 % 4 = k / 128
  omega

/-- R139: each encryption is of the previous output, "with P and S as they stand now". -/
theorem bfFillStep_output (c : (Word × Word) × BFSchedule) (k : Nat) : (bfFillStep c k).1 = bfEncHalves c.2 c.1 := by
  unfold bfFillStep
  split <;> rfl

theorem bfFillBox_eq_steps (b : Fin 4) (c : (Word × Word) × BFSchedule) :
    bfFillBox c b = ((List.range 128).map (9 + 128 * b.val + ·)).foldl bfFillStep c := by
  rw [List.foldl_map, bfFillBox]
  apply List.foldl_ext
  intro a j hj
  have hj : j < 128 := by simpa using hj
  have hb := b.isLt
  rw [show 9 + 128 * b.val + j = 9 + (128 * b.val + j) by omega, bfFillStep_s (by omega)]
  congr 1
  · apply Fin.ext
    show b.val = (128 * b.val + j) / 128
    omega
  · omega

/-- A first stretch of indices and then four stretches of one length. -/
theorem range_stretches (n m : Nat) : List.range (n + m + m + m + m) =
    (((List.range n ++ (List.range m).map (n + ·)) ++ (List.range m).map (n + m + ·)) ++
      (List.range m).map (n + m + m + ·)) ++ (List.range m).map (n + m + m + m + ·) := by
  simp only [List.range_add]

theorem bfFill_eq_stretches (sch : BFSchedule) {n m : Nat} (hn : n = 9) (hm : m = 128) :
    bfFill sch = ((List.range (n + m + m + m + m)).foldl bfFillStep ((0, 0), sch)).2 := by
  have hp : (List.range 9).foldl bfFillP ((0, 0), sch) = (List.range n).foldl bfFillStep ((0, 0), sch) := by
    rw [hn]
    apply List.foldl_ext
    intro a j hj
    exact (bfFillStep_p (by simpa using hj) a).symm
  have box (b : Fin 4) (c : (Word × Word) × BFSchedule) (o : Nat) (h : o = 9 + 128 * b.val) :
      bfFillBox c b = ((List.range m).map (o + ·)).foldl bfFillStep c := by
    rw [h, hm]
    exact bfFillBox_eq_steps b c
  rw [range_stretches, bfFill_eq]
  simp only [List.foldl_append, ← hp, List.foldl_cons, List.foldl_nil]
  rw [box 0 _ n (by rw [hn]; rfl), box 1 _ (n + m) (by rw [hn, hm]; rfl), box 2 _ (n + m + m) (by rw [hn, hm]; rfl),
    box 3 _ (n + m + m + m) (by rw [hn, hm]; rfl)]

/-- R139: the fill is 9 + 512 = 521 encryptions in a row, from the all-zero block. -/
theorem bfFill_eq_steps (sch : BFSchedule) :
    bfFill sch = ((List.range 521).foldl bfFillStep ((0, 0), sch)).2 :=
  bfFill_eq_stretches sch (n := 9) (m := 128) rfl rfl

/-! ### Twofish rounds (R186, R187) -/

@[simp] theorem tfSwap_tfSwap (w : TFWords) : tfSwap (tfSwap w) = w := rfl

/-- R186, R187: whitening twice with the same subkeys is nothing. -/
@[simp] theorem tfWhiten_tfWhiten (sch : TFSchedule) (a : Nat) (w : TFWords) :
    tfWhiten sch a (tfWhiten sch a w) = w := by
  simp [tfWhiten]

theorem rotateRight_one_getLsbD (x : Word) (i : Nat) (hi : i < 32) :
    (x.rotateRight 1).getLsbD i = x.getLsbD ((i + 1) % 32) := by
  simp only [BitVec.getLsbD_rotateRight]
  rcases Nat.lt_or_ge i 31 with h | h
  · rw [show (i + 1) % 32 = 1 + i by omega]
    simp [h]
  · have : i = 31 := by omega
    subst this
    simp

theorem rotateLeft_one_getLsbD (x : Word) (i : Nat) (hi : i < 32) :
    (x.rotateLeft 1).getLsbD i = x.getLsbD ((i + 31) % 32) := by
  simp only [BitVec.getLsbD_rotateLeft]
  rcases Nat.lt_or_ge 0 i with h | h
  · rw [show (i + 31) % 32 = i - 1 by omega]
    simp [hi, show ¬ i = 0 by omega]
  · have : i = 0 := by omega
    subst this
    simp

@[simp] theorem rotateLeft_rotateRight_one (x : Word) : (x.rotateRight 1).rotateLeft 1 = x := by
  apply BitVec.eq_of_getLsbD_eq
  intro i hi
  rw [rotateLeft_one_getLsbD _ _ hi, rotateRight_one_getLsbD _ _ (by omega)]
  congr 1
  omega

@[simp] theorem rotateRight_rotateLeft_one (x : Word) : (x.rotateLeft 1).rotateRight 1 = x := by
  apply BitVec.eq_of_getLsbD_eq
  intro i hi
  rw [rotateRight_one_getLsbD _ _ hi, rotateLeft_one_getLsbD _ _ (by omega)]
  congr 1
  omega

/-- R187: a decryption round undoes the encryption round with the same number. -/
@[simp] theorem tfDecRound_tfEncRound (sch : TFSchedule) (w : TFWords) (r : Nat) :
    tfDecRound sch (tfEncRound sch w r) r = w := by
  simp [tfDecRound, tfEncRound]

/-- Rounds undone one by one, in the reverse order. -/
theorem foldl_reverse_undo {α β : Type} (f g : α → β → α) (h : ∀ a b, g (f a b) b = a) (l : List β) (a : α) :
    l.reverse.foldl g (l.foldl f a) = a := by
  induction l generalizing a with
  | nil => rfl
  | cons b l ih => simp [List.foldl_append, ih, h]

/-! ### Multiplication in GF(2^8) (R172) -/

/-- The accumulator of the loop only adds. -/
theorem gfMulLoop_acc (poly : BitVec 9) (n : Nat) (a : BitVec 9) (b r : Byte) :
    gfMulLoop poly n a b r = r ^^^ gfMulLoop poly n a b 0 := by
  induction n generalizing a b r with
  | zero => simp [gfMulLoop]
  | succ n ih =>
    by_cases hb : b = 0
    · simp [gfMulLoop, hb]
    · simp only [gfMulLoop, hb, if_false]
      rw [ih, ih (r := if b.getLsbD 0 then 0 ^^^ a.setWidth 8 else 0)]
      split <;> simp [BitVec.xor_assoc]

/-- A turn of the loop also holds of b = 0, where the loop has ended: it adds nothing. -/
theorem gfMulLoop_succ (poly : BitVec 9) (n : Nat) (a : BitVec 9) (b r : Byte) :
    gfMulLoop poly (n + 1) a b r = gfMulLoop poly n (gfDouble poly a) (b >>> 1)
      (if b.getLsbD 0 then r ^^^ a.setWidth 8 else r) := by
  by_cases hb : b = 0
  · subst hb
    cases n <;> simp [gfMulLoop]
  · simp only [gfMulLoop, hb, if_false]

end Sys2Proof.Machine
end

