-- ==== Sys2Proof/Laws/State.lean ====
section
/-! SUPPORT. One lemma per field and update of State: what each shared update of the model writes, and what it
leaves. -/

namespace Sys2Proof.Machine

/-! ### closeSession (R222) -/

@[simp] theorem closeSession_ieDone (s : State) : (closeSession s).ieDone = s.ieDone := rfl
@[simp] theorem closeSession_ieErr (s : State) : (closeSession s).ieErr = s.ieErr := rfl
@[simp] theorem closeSession_busy (s : State) : (closeSession s).busy = s.busy := rfl
@[simp] theorem closeSession_done (s : State) : (closeSession s).done = s.done := rfl
@[simp] theorem closeSession_errf (s : State) : (closeSession s).errf = s.errf := rfl
@[simp] theorem closeSession_ovr (s : State) : (closeSession s).ovr = s.ovr := rfl
@[simp] theorem closeSession_sessValid (s : State) : (closeSession s).sessValid = false := rfl
@[simp] theorem closeSession_err (s : State) : (closeSession s).err = s.err := rfl
@[simp] theorem closeSession_detail (s : State) : (closeSession s).detail = s.detail := rfl
@[simp] theorem closeSession_lcmd (s : State) : (closeSession s).lcmd = s.lcmd := rfl
@[simp] theorem closeSession_sAlg (s : State) : (closeSession s).sAlg = .blowfish := rfl
@[simp] theorem closeSession_sDir (s : State) : (closeSession s).sDir = .enc := rfl
@[simp] theorem closeSession_sMode (s : State) : (closeSession s).sMode = .ecb := rfl
@[simp] theorem closeSession_nout (s : State) : (closeSession s).nout = s.nout := rfl
@[simp] theorem closeSession_keybuf (s : State) : (closeSession s).keybuf = s.keybuf := rfl
@[simp] theorem closeSession_ivbuf (s : State) : (closeSession s).ivbuf = s.ivbuf := rfl
@[simp] theorem closeSession_dinbuf (s : State) : (closeSession s).dinbuf = zeroBytes 16 := rfl
@[simp] theorem closeSession_cv (s : State) : (closeSession s).cv = zeroBytes 16 := rfl
@[simp] theorem closeSession_doutbuf (s : State) : (closeSession s).doutbuf = s.doutbuf := rfl
@[simp] theorem closeSession_bf (s : State) : (closeSession s).bf = BFSchedule.zero := rfl
@[simp] theorem closeSession_tf (s : State) : (closeSession s).tf = TFSchedule.zero := rfl
@[simp] theorem closeSession_agenda (s : State) : (closeSession s).agenda = s.agenda := rfl
@[simp] theorem closeSession_replies (s : State) : (closeSession s).replies = s.replies := rfl

/-! ### complete (R285) -/

@[simp] theorem complete_ieDone (n : Nat) (s : State) : (complete n s).ieDone = s.ieDone := rfl
@[simp] theorem complete_ieErr (n : Nat) (s : State) : (complete n s).ieErr = s.ieErr := rfl
@[simp] theorem complete_busy (n : Nat) (s : State) : (complete n s).busy = false := rfl
@[simp] theorem complete_done (n : Nat) (s : State) : (complete n s).done = true := rfl
@[simp] theorem complete_errf (n : Nat) (s : State) : (complete n s).errf = s.errf := rfl
@[simp] theorem complete_ovr (n : Nat) (s : State) : (complete n s).ovr = s.ovr := rfl
@[simp] theorem complete_sessValid (n : Nat) (s : State) : (complete n s).sessValid = s.sessValid := rfl
@[simp] theorem complete_err (n : Nat) (s : State) : (complete n s).err = 0 := rfl
@[simp] theorem complete_detail (n : Nat) (s : State) : (complete n s).detail = 0 := rfl
@[simp] theorem complete_lcmd (n : Nat) (s : State) : (complete n s).lcmd = s.lcmd := rfl
@[simp] theorem complete_sAlg (n : Nat) (s : State) : (complete n s).sAlg = s.sAlg := rfl
@[simp] theorem complete_sDir (n : Nat) (s : State) : (complete n s).sDir = s.sDir := rfl
@[simp] theorem complete_sMode (n : Nat) (s : State) : (complete n s).sMode = s.sMode := rfl
@[simp] theorem complete_nout (n : Nat) (s : State) : (complete n s).nout = BitVec.ofNat 5 n := rfl
@[simp] theorem complete_keybuf (n : Nat) (s : State) : (complete n s).keybuf = s.keybuf := rfl
@[simp] theorem complete_ivbuf (n : Nat) (s : State) : (complete n s).ivbuf = s.ivbuf := rfl
@[simp] theorem complete_dinbuf (n : Nat) (s : State) : (complete n s).dinbuf = s.dinbuf := rfl
@[simp] theorem complete_cv (n : Nat) (s : State) : (complete n s).cv = s.cv := rfl
@[simp] theorem complete_doutbuf (n : Nat) (s : State) : (complete n s).doutbuf = s.doutbuf := rfl
@[simp] theorem complete_bf (n : Nat) (s : State) : (complete n s).bf = s.bf := rfl
@[simp] theorem complete_tf (n : Nat) (s : State) : (complete n s).tf = s.tf := rfl
@[simp] theorem complete_agenda (n : Nat) (s : State) : (complete n s).agenda = s.agenda := rfl
@[simp] theorem complete_replies (n : Nat) (s : State) : (complete n s).replies = s.replies := rfl

/-! ### latchCommand (R223) -/

@[simp] theorem latchCommand_ieDone (v : Word) (s : State) : (latchCommand v s).ieDone = s.ieDone := rfl
@[simp] theorem latchCommand_ieErr (v : Word) (s : State) : (latchCommand v s).ieErr = s.ieErr := rfl
@[simp] theorem latchCommand_busy (v : Word) (s : State) : (latchCommand v s).busy = true := rfl
@[simp] theorem latchCommand_done (v : Word) (s : State) : (latchCommand v s).done = false := rfl
@[simp] theorem latchCommand_errf (v : Word) (s : State) : (latchCommand v s).errf = s.errf := rfl
@[simp] theorem latchCommand_ovr (v : Word) (s : State) : (latchCommand v s).ovr = s.ovr := rfl
@[simp] theorem latchCommand_sessValid (v : Word) (s : State) : (latchCommand v s).sessValid = s.sessValid := rfl
@[simp] theorem latchCommand_err (v : Word) (s : State) : (latchCommand v s).err = s.err := rfl
@[simp] theorem latchCommand_detail (v : Word) (s : State) : (latchCommand v s).detail = s.detail := rfl
@[simp] theorem latchCommand_lcmd (v : Word) (s : State) : (latchCommand v s).lcmd = v := rfl
@[simp] theorem latchCommand_sAlg (v : Word) (s : State) : (latchCommand v s).sAlg = s.sAlg := rfl
@[simp] theorem latchCommand_sDir (v : Word) (s : State) : (latchCommand v s).sDir = s.sDir := rfl
@[simp] theorem latchCommand_sMode (v : Word) (s : State) : (latchCommand v s).sMode = s.sMode := rfl
@[simp] theorem latchCommand_nout (v : Word) (s : State) : (latchCommand v s).nout = s.nout := rfl
@[simp] theorem latchCommand_keybuf (v : Word) (s : State) : (latchCommand v s).keybuf = s.keybuf := rfl
@[simp] theorem latchCommand_ivbuf (v : Word) (s : State) : (latchCommand v s).ivbuf = s.ivbuf := rfl
@[simp] theorem latchCommand_dinbuf (v : Word) (s : State) : (latchCommand v s).dinbuf = s.dinbuf := rfl
@[simp] theorem latchCommand_cv (v : Word) (s : State) : (latchCommand v s).cv = s.cv := rfl
@[simp] theorem latchCommand_doutbuf (v : Word) (s : State) : (latchCommand v s).doutbuf = s.doutbuf := rfl
@[simp] theorem latchCommand_bf (v : Word) (s : State) : (latchCommand v s).bf = s.bf := rfl
@[simp] theorem latchCommand_tf (v : Word) (s : State) : (latchCommand v s).tf = s.tf := rfl
@[simp] theorem latchCommand_agenda (v : Word) (s : State) : (latchCommand v s).agenda = s.agenda := rfl
@[simp] theorem latchCommand_replies (v : Word) (s : State) : (latchCommand v s).replies = s.replies := rfl

/-! ### clearBuffers (R237) -/

@[simp] theorem clearBuffers_ieDone (s : State) : (clearBuffers s).ieDone = s.ieDone := rfl
@[simp] theorem clearBuffers_ieErr (s : State) : (clearBuffers s).ieErr = s.ieErr := rfl
@[simp] theorem clearBuffers_busy (s : State) : (clearBuffers s).busy = s.busy := rfl
@[simp] theorem clearBuffers_done (s : State) : (clearBuffers s).done = s.done := rfl
@[simp] theorem clearBuffers_errf (s : State) : (clearBuffers s).errf = s.errf := rfl
@[simp] theorem clearBuffers_ovr (s : State) : (clearBuffers s).ovr = s.ovr := rfl
@[simp] theorem clearBuffers_sessValid (s : State) : (clearBuffers s).sessValid = s.sessValid := rfl
@[simp] theorem clearBuffers_err (s : State) : (clearBuffers s).err = s.err := rfl
@[simp] theorem clearBuffers_detail (s : State) : (clearBuffers s).detail = s.detail := rfl
@[simp] theorem clearBuffers_lcmd (s : State) : (clearBuffers s).lcmd = s.lcmd := rfl
@[simp] theorem clearBuffers_sAlg (s : State) : (clearBuffers s).sAlg = s.sAlg := rfl
@[simp] theorem clearBuffers_sDir (s : State) : (clearBuffers s).sDir = s.sDir := rfl
@[simp] theorem clearBuffers_sMode (s : State) : (clearBuffers s).sMode = s.sMode := rfl
@[simp] theorem clearBuffers_nout (s : State) : (clearBuffers s).nout = s.nout := rfl
@[simp] theorem clearBuffers_keybuf (s : State) : (clearBuffers s).keybuf = zeroBytes 56 := rfl
@[simp] theorem clearBuffers_ivbuf (s : State) : (clearBuffers s).ivbuf = zeroBytes 16 := rfl
@[simp] theorem clearBuffers_dinbuf (s : State) : (clearBuffers s).dinbuf = zeroBytes 16 := rfl
@[simp] theorem clearBuffers_cv (s : State) : (clearBuffers s).cv = zeroBytes 16 := rfl
@[simp] theorem clearBuffers_doutbuf (s : State) : (clearBuffers s).doutbuf = zeroBytes 16 := rfl
@[simp] theorem clearBuffers_bf (s : State) : (clearBuffers s).bf = s.bf := rfl
@[simp] theorem clearBuffers_tf (s : State) : (clearBuffers s).tf = s.tf := rfl
@[simp] theorem clearBuffers_agenda (s : State) : (clearBuffers s).agenda = s.agenda := rfl
@[simp] theorem clearBuffers_replies (s : State) : (clearBuffers s).replies = s.replies := rfl

/-! ### openSession (R226, R229) -/

@[simp] theorem openSession_ieDone (a : Alg) (d : Dir) (m : Mode) (s : State) : (openSession a d m s).ieDone = s.ieDone := rfl
@[simp] theorem openSession_ieErr (a : Alg) (d : Dir) (m : Mode) (s : State) : (openSession a d m s).ieErr = s.ieErr := rfl
@[simp] theorem openSession_busy (a : Alg) (d : Dir) (m : Mode) (s : State) : (openSession a d m s).busy = s.busy := rfl
@[simp] theorem openSession_done (a : Alg) (d : Dir) (m : Mode) (s : State) : (openSession a d m s).done = s.done := rfl
@[simp] theorem openSession_errf (a : Alg) (d : Dir) (m : Mode) (s : State) : (openSession a d m s).errf = s.errf := rfl
@[simp] theorem openSession_ovr (a : Alg) (d : Dir) (m : Mode) (s : State) : (openSession a d m s).ovr = s.ovr := rfl
@[simp] theorem openSession_sessValid (a : Alg) (d : Dir) (m : Mode) (s : State) : (openSession a d m s).sessValid = true := rfl
@[simp] theorem openSession_err (a : Alg) (d : Dir) (m : Mode) (s : State) : (openSession a d m s).err = s.err := rfl
@[simp] theorem openSession_detail (a : Alg) (d : Dir) (m : Mode) (s : State) : (openSession a d m s).detail = s.detail := rfl
@[simp] theorem openSession_lcmd (a : Alg) (d : Dir) (m : Mode) (s : State) : (openSession a d m s).lcmd = s.lcmd := rfl
@[simp] theorem openSession_sAlg (a : Alg) (d : Dir) (m : Mode) (s : State) : (openSession a d m s).sAlg = a := rfl
@[simp] theorem openSession_sDir (a : Alg) (d : Dir) (m : Mode) (s : State) : (openSession a d m s).sDir = d := rfl
@[simp] theorem openSession_sMode (a : Alg) (d : Dir) (m : Mode) (s : State) : (openSession a d m s).sMode = m := rfl
@[simp] theorem openSession_nout (a : Alg) (d : Dir) (m : Mode) (s : State) : (openSession a d m s).nout = s.nout := rfl
@[simp] theorem openSession_keybuf (a : Alg) (d : Dir) (m : Mode) (s : State) : (openSession a d m s).keybuf = s.keybuf := rfl
@[simp] theorem openSession_ivbuf (a : Alg) (d : Dir) (m : Mode) (s : State) : (openSession a d m s).ivbuf = s.ivbuf := rfl
@[simp] theorem openSession_dinbuf (a : Alg) (d : Dir) (m : Mode) (s : State) : (openSession a d m s).dinbuf = s.dinbuf := rfl
@[simp] theorem openSession_doutbuf (a : Alg) (d : Dir) (m : Mode) (s : State) : (openSession a d m s).doutbuf = s.doutbuf := rfl
@[simp] theorem openSession_bf (a : Alg) (d : Dir) (m : Mode) (s : State) : (openSession a d m s).bf = s.bf := rfl
@[simp] theorem openSession_tf (a : Alg) (d : Dir) (m : Mode) (s : State) : (openSession a d m s).tf = s.tf := rfl
@[simp] theorem openSession_agenda (a : Alg) (d : Dir) (m : Mode) (s : State) : (openSession a d m s).agenda = s.agenda := rfl
@[simp] theorem openSession_replies (a : Alg) (d : Dir) (m : Mode) (s : State) : (openSession a d m s).replies = s.replies := rfl
@[simp] theorem openSession_cv_cbc (a : Alg) (d : Dir) (s : State) : (openSession a d .cbc s).cv = s.ivbuf := rfl
@[simp] theorem openSession_cv_ecb (a : Alg) (d : Dir) (s : State) : (openSession a d .ecb s).cv = zeroBytes 16 := rfl

/-! ### setChaining (R234, R235) -/

@[simp] theorem setChaining_ieDone (a : Alg) (c : Block a) (s : State) : (setChaining a c s).ieDone = s.ieDone := rfl
@[simp] theorem setChaining_ieErr (a : Alg) (c : Block a) (s : State) : (setChaining a c s).ieErr = s.ieErr := rfl
@[simp] theorem setChaining_busy (a : Alg) (c : Block a) (s : State) : (setChaining a c s).busy = s.busy := rfl
@[simp] theorem setChaining_done (a : Alg) (c : Block a) (s : State) : (setChaining a c s).done = s.done := rfl
@[simp] theorem setChaining_errf (a : Alg) (c : Block a) (s : State) : (setChaining a c s).errf = s.errf := rfl
@[simp] theorem setChaining_ovr (a : Alg) (c : Block a) (s : State) : (setChaining a c s).ovr = s.ovr := rfl
@[simp] theorem setChaining_sessValid (a : Alg) (c : Block a) (s : State) : (setChaining a c s).sessValid = s.sessValid := rfl
@[simp] theorem setChaining_err (a : Alg) (c : Block a) (s : State) : (setChaining a c s).err = s.err := rfl
@[simp] theorem setChaining_detail (a : Alg) (c : Block a) (s : State) : (setChaining a c s).detail = s.detail := rfl
@[simp] theorem setChaining_lcmd (a : Alg) (c : Block a) (s : State) : (setChaining a c s).lcmd = s.lcmd := rfl
@[simp] theorem setChaining_sAlg (a : Alg) (c : Block a) (s : State) : (setChaining a c s).sAlg = s.sAlg := rfl
@[simp] theorem setChaining_sDir (a : Alg) (c : Block a) (s : State) : (setChaining a c s).sDir = s.sDir := rfl
@[simp] theorem setChaining_sMode (a : Alg) (c : Block a) (s : State) : (setChaining a c s).sMode = s.sMode := rfl
@[simp] theorem setChaining_nout (a : Alg) (c : Block a) (s : State) : (setChaining a c s).nout = s.nout := rfl
@[simp] theorem setChaining_keybuf (a : Alg) (c : Block a) (s : State) : (setChaining a c s).keybuf = s.keybuf := rfl
@[simp] theorem setChaining_ivbuf (a : Alg) (c : Block a) (s : State) : (setChaining a c s).ivbuf = s.ivbuf := rfl
@[simp] theorem setChaining_dinbuf (a : Alg) (c : Block a) (s : State) : (setChaining a c s).dinbuf = s.dinbuf := rfl
@[simp] theorem setChaining_cv (a : Alg) (c : Block a) (s : State) : (setChaining a c s).cv = overlayBytes c s.cv := rfl
@[simp] theorem setChaining_doutbuf (a : Alg) (c : Block a) (s : State) : (setChaining a c s).doutbuf = s.doutbuf := rfl
@[simp] theorem setChaining_bf (a : Alg) (c : Block a) (s : State) : (setChaining a c s).bf = s.bf := rfl
@[simp] theorem setChaining_tf (a : Alg) (c : Block a) (s : State) : (setChaining a c s).tf = s.tf := rfl
@[simp] theorem setChaining_agenda (a : Alg) (c : Block a) (s : State) : (setChaining a c s).agenda = s.agenda := rfl
@[simp] theorem setChaining_replies (a : Alg) (c : Block a) (s : State) : (setChaining a c s).replies = s.replies := rfl

/-! ### setOutput (R236) -/

@[simp] theorem setOutput_ieDone (a : Alg) (y : Block a) (s : State) : (setOutput a y s).ieDone = s.ieDone := rfl
@[simp] theorem setOutput_ieErr (a : Alg) (y : Block a) (s : State) : (setOutput a y s).ieErr = s.ieErr := rfl
@[simp] theorem setOutput_busy (a : Alg) (y : Block a) (s : State) : (setOutput a y s).busy = s.busy := rfl
@[simp] theorem setOutput_done (a : Alg) (y : Block a) (s : State) : (setOutput a y s).done = s.done := rfl
@[simp] theorem setOutput_errf (a : Alg) (y : Block a) (s : State) : (setOutput a y s).errf = s.errf := rfl
@[simp] theorem setOutput_ovr (a : Alg) (y : Block a) (s : State) : (setOutput a y s).ovr = s.ovr := rfl
@[simp] theorem setOutput_sessValid (a : Alg) (y : Block a) (s : State) : (setOutput a y s).sessValid = s.sessValid := rfl
@[simp] theorem setOutput_err (a : Alg) (y : Block a) (s : State) : (setOutput a y s).err = s.err := rfl
@[simp] theorem setOutput_detail (a : Alg) (y : Block a) (s : State) : (setOutput a y s).detail = s.detail := rfl
@[simp] theorem setOutput_lcmd (a : Alg) (y : Block a) (s : State) : (setOutput a y s).lcmd = s.lcmd := rfl
@[simp] theorem setOutput_sAlg (a : Alg) (y : Block a) (s : State) : (setOutput a y s).sAlg = s.sAlg := rfl
@[simp] theorem setOutput_sDir (a : Alg) (y : Block a) (s : State) : (setOutput a y s).sDir = s.sDir := rfl
@[simp] theorem setOutput_sMode (a : Alg) (y : Block a) (s : State) : (setOutput a y s).sMode = s.sMode := rfl
@[simp] theorem setOutput_nout (a : Alg) (y : Block a) (s : State) : (setOutput a y s).nout = s.nout := rfl
@[simp] theorem setOutput_keybuf (a : Alg) (y : Block a) (s : State) : (setOutput a y s).keybuf = s.keybuf := rfl
@[simp] theorem setOutput_ivbuf (a : Alg) (y : Block a) (s : State) : (setOutput a y s).ivbuf = s.ivbuf := rfl
@[simp] theorem setOutput_dinbuf (a : Alg) (y : Block a) (s : State) : (setOutput a y s).dinbuf = s.dinbuf := rfl
@[simp] theorem setOutput_cv (a : Alg) (y : Block a) (s : State) : (setOutput a y s).cv = s.cv := rfl
@[simp] theorem setOutput_doutbuf (a : Alg) (y : Block a) (s : State) : (setOutput a y s).doutbuf = overlayBytes y (zeroBytes 16) := rfl
@[simp] theorem setOutput_bf (a : Alg) (y : Block a) (s : State) : (setOutput a y s).bf = s.bf := rfl
@[simp] theorem setOutput_tf (a : Alg) (y : Block a) (s : State) : (setOutput a y s).tf = s.tf := rfl
@[simp] theorem setOutput_agenda (a : Alg) (y : Block a) (s : State) : (setOutput a y s).agenda = s.agenda := rfl
@[simp] theorem setOutput_replies (a : Alg) (y : Block a) (s : State) : (setOutput a y s).replies = s.replies := rfl

/-! ### writeCtrl (R37) -/

@[simp] theorem writeCtrl_ieDone (v : Word) (s : State) : (writeCtrl v s).ieDone = v.getLsbD 0 := rfl
@[simp] theorem writeCtrl_ieErr (v : Word) (s : State) : (writeCtrl v s).ieErr = v.getLsbD 1 := rfl
@[simp] theorem writeCtrl_busy (v : Word) (s : State) : (writeCtrl v s).busy = s.busy := rfl
@[simp] theorem writeCtrl_done (v : Word) (s : State) : (writeCtrl v s).done = s.done := rfl
@[simp] theorem writeCtrl_errf (v : Word) (s : State) : (writeCtrl v s).errf = s.errf := rfl
@[simp] theorem writeCtrl_ovr (v : Word) (s : State) : (writeCtrl v s).ovr = s.ovr := rfl
@[simp] theorem writeCtrl_sessValid (v : Word) (s : State) : (writeCtrl v s).sessValid = s.sessValid := rfl
@[simp] theorem writeCtrl_err (v : Word) (s : State) : (writeCtrl v s).err = s.err := rfl
@[simp] theorem writeCtrl_detail (v : Word) (s : State) : (writeCtrl v s).detail = s.detail := rfl
@[simp] theorem writeCtrl_lcmd (v : Word) (s : State) : (writeCtrl v s).lcmd = s.lcmd := rfl
@[simp] theorem writeCtrl_sAlg (v : Word) (s : State) : (writeCtrl v s).sAlg = s.sAlg := rfl
@[simp] theorem writeCtrl_sDir (v : Word) (s : State) : (writeCtrl v s).sDir = s.sDir := rfl
@[simp] theorem writeCtrl_sMode (v : Word) (s : State) : (writeCtrl v s).sMode = s.sMode := rfl
@[simp] theorem writeCtrl_nout (v : Word) (s : State) : (writeCtrl v s).nout = s.nout := rfl
@[simp] theorem writeCtrl_keybuf (v : Word) (s : State) : (writeCtrl v s).keybuf = s.keybuf := rfl
@[simp] theorem writeCtrl_ivbuf (v : Word) (s : State) : (writeCtrl v s).ivbuf = s.ivbuf := rfl
@[simp] theorem writeCtrl_dinbuf (v : Word) (s : State) : (writeCtrl v s).dinbuf = s.dinbuf := rfl
@[simp] theorem writeCtrl_cv (v : Word) (s : State) : (writeCtrl v s).cv = s.cv := rfl
@[simp] theorem writeCtrl_doutbuf (v : Word) (s : State) : (writeCtrl v s).doutbuf = s.doutbuf := rfl
@[simp] theorem writeCtrl_bf (v : Word) (s : State) : (writeCtrl v s).bf = s.bf := rfl
@[simp] theorem writeCtrl_tf (v : Word) (s : State) : (writeCtrl v s).tf = s.tf := rfl
@[simp] theorem writeCtrl_agenda (v : Word) (s : State) : (writeCtrl v s).agenda = s.agenda := rfl
@[simp] theorem writeCtrl_replies (v : Word) (s : State) : (writeCtrl v s).replies = s.replies := rfl

/-! ### clearStatus (R38) -/

@[simp] theorem clearStatus_ieDone (v : Word) (s : State) : (clearStatus v s).ieDone = s.ieDone := rfl
@[simp] theorem clearStatus_ieErr (v : Word) (s : State) : (clearStatus v s).ieErr = s.ieErr := rfl
@[simp] theorem clearStatus_busy (v : Word) (s : State) : (clearStatus v s).busy = s.busy := rfl
@[simp] theorem clearStatus_done (v : Word) (s : State) : (clearStatus v s).done = (s.done && !v.getLsbD 1) := rfl
@[simp] theorem clearStatus_errf (v : Word) (s : State) : (clearStatus v s).errf = (s.errf && !v.getLsbD 2) := rfl
@[simp] theorem clearStatus_ovr (v : Word) (s : State) : (clearStatus v s).ovr = (s.ovr && !v.getLsbD 3) := rfl
@[simp] theorem clearStatus_sessValid (v : Word) (s : State) : (clearStatus v s).sessValid = s.sessValid := rfl
@[simp] theorem clearStatus_err (v : Word) (s : State) : (clearStatus v s).err = s.err := rfl
@[simp] theorem clearStatus_detail (v : Word) (s : State) : (clearStatus v s).detail = s.detail := rfl
@[simp] theorem clearStatus_lcmd (v : Word) (s : State) : (clearStatus v s).lcmd = s.lcmd := rfl
@[simp] theorem clearStatus_sAlg (v : Word) (s : State) : (clearStatus v s).sAlg = s.sAlg := rfl
@[simp] theorem clearStatus_sDir (v : Word) (s : State) : (clearStatus v s).sDir = s.sDir := rfl
@[simp] theorem clearStatus_sMode (v : Word) (s : State) : (clearStatus v s).sMode = s.sMode := rfl
@[simp] theorem clearStatus_nout (v : Word) (s : State) : (clearStatus v s).nout = s.nout := rfl
@[simp] theorem clearStatus_keybuf (v : Word) (s : State) : (clearStatus v s).keybuf = s.keybuf := rfl
@[simp] theorem clearStatus_ivbuf (v : Word) (s : State) : (clearStatus v s).ivbuf = s.ivbuf := rfl
@[simp] theorem clearStatus_dinbuf (v : Word) (s : State) : (clearStatus v s).dinbuf = s.dinbuf := rfl
@[simp] theorem clearStatus_cv (v : Word) (s : State) : (clearStatus v s).cv = s.cv := rfl
@[simp] theorem clearStatus_doutbuf (v : Word) (s : State) : (clearStatus v s).doutbuf = s.doutbuf := rfl
@[simp] theorem clearStatus_bf (v : Word) (s : State) : (clearStatus v s).bf = s.bf := rfl
@[simp] theorem clearStatus_tf (v : Word) (s : State) : (clearStatus v s).tf = s.tf := rfl
@[simp] theorem clearStatus_agenda (v : Word) (s : State) : (clearStatus v s).agenda = s.agenda := rfl
@[simp] theorem clearStatus_replies (v : Word) (s : State) : (clearStatus v s).replies = s.replies := rfl

/-! ### closeIfOpen (R226, R237, R286) -/

theorem closeIfOpen_of_open {s : State} (h : s.sessValid = true) : closeIfOpen s = closeSession s := by
  simp [closeIfOpen, h]
theorem closeIfOpen_of_closed {s : State} (h : s.sessValid = false) : closeIfOpen s = s := by
  simp [closeIfOpen, h]
@[simp] theorem closeIfOpen_sessValid (s : State) : (closeIfOpen s).sessValid = false := by
  cases h : s.sessValid <;> simp [closeIfOpen, h]
@[simp] theorem closeIfOpen_ieDone (s : State) : (closeIfOpen s).ieDone = s.ieDone := by
  cases h : s.sessValid <;> simp [closeIfOpen, h]
@[simp] theorem closeIfOpen_ieErr (s : State) : (closeIfOpen s).ieErr = s.ieErr := by
  cases h : s.sessValid <;> simp [closeIfOpen, h]
@[simp] theorem closeIfOpen_busy (s : State) : (closeIfOpen s).busy = s.busy := by
  cases h : s.sessValid <;> simp [closeIfOpen, h]
@[simp] theorem closeIfOpen_done (s : State) : (closeIfOpen s).done = s.done := by
  cases h : s.sessValid <;> simp [closeIfOpen, h]
@[simp] theorem closeIfOpen_errf (s : State) : (closeIfOpen s).errf = s.errf := by
  cases h : s.sessValid <;> simp [closeIfOpen, h]
@[simp] theorem closeIfOpen_ovr (s : State) : (closeIfOpen s).ovr = s.ovr := by
  cases h : s.sessValid <;> simp [closeIfOpen, h]
@[simp] theorem closeIfOpen_err (s : State) : (closeIfOpen s).err = s.err := by
  cases h : s.sessValid <;> simp [closeIfOpen, h]
@[simp] theorem closeIfOpen_detail (s : State) : (closeIfOpen s).detail = s.detail := by
  cases h : s.sessValid <;> simp [closeIfOpen, h]
@[simp] theorem closeIfOpen_lcmd (s : State) : (closeIfOpen s).lcmd = s.lcmd := by
  cases h : s.sessValid <;> simp [closeIfOpen, h]
@[simp] theorem closeIfOpen_sAlg (s : State) :
    (closeIfOpen s).sAlg = if s.sessValid then .blowfish else s.sAlg := by
  cases h : s.sessValid <;> simp [closeIfOpen, h]
@[simp] theorem closeIfOpen_sDir (s : State) :
    (closeIfOpen s).sDir = if s.sessValid then .enc else s.sDir := by
  cases h : s.sessValid <;> simp [closeIfOpen, h]
@[simp] theorem closeIfOpen_sMode (s : State) :
    (closeIfOpen s).sMode = if s.sessValid then .ecb else s.sMode := by
  cases h : s.sessValid <;> simp [closeIfOpen, h]
@[simp] theorem closeIfOpen_nout (s : State) : (closeIfOpen s).nout = s.nout := by
  cases h : s.sessValid <;> simp [closeIfOpen, h]
@[simp] theorem closeIfOpen_keybuf (s : State) : (closeIfOpen s).keybuf = s.keybuf := by
  cases h : s.sessValid <;> simp [closeIfOpen, h]
@[simp] theorem closeIfOpen_ivbuf (s : State) : (closeIfOpen s).ivbuf = s.ivbuf := by
  cases h : s.sessValid <;> simp [closeIfOpen, h]
@[simp] theorem closeIfOpen_dinbuf (s : State) :
    (closeIfOpen s).dinbuf = if s.sessValid then zeroBytes 16 else s.dinbuf := by
  cases h : s.sessValid <;> simp [closeIfOpen, h]
@[simp] theorem closeIfOpen_cv (s : State) :
    (closeIfOpen s).cv = if s.sessValid then zeroBytes 16 else s.cv := by
  cases h : s.sessValid <;> simp [closeIfOpen, h]
@[simp] theorem closeIfOpen_doutbuf (s : State) : (closeIfOpen s).doutbuf = s.doutbuf := by
  cases h : s.sessValid <;> simp [closeIfOpen, h]
@[simp] theorem closeIfOpen_bf (s : State) :
    (closeIfOpen s).bf = if s.sessValid then BFSchedule.zero else s.bf := by
  cases h : s.sessValid <;> simp [closeIfOpen, h]
@[simp] theorem closeIfOpen_tf (s : State) :
    (closeIfOpen s).tf = if s.sessValid then TFSchedule.zero else s.tf := by
  cases h : s.sessValid <;> simp [closeIfOpen, h]
@[simp] theorem closeIfOpen_agenda (s : State) : (closeIfOpen s).agenda = s.agenda := by
  cases h : s.sessValid <;> simp [closeIfOpen, h]
@[simp] theorem closeIfOpen_replies (s : State) : (closeIfOpen s).replies = s.replies := by
  cases h : s.sessValid <;> simp [closeIfOpen, h]

/-! ### errorCompletion (R286) -/

@[simp] theorem errorCompletion_ieDone (e : CmdError) (s : State) : (errorCompletion e s).ieDone = s.ieDone :=
  closeIfOpen_ieDone s
@[simp] theorem errorCompletion_ieErr (e : CmdError) (s : State) : (errorCompletion e s).ieErr = s.ieErr :=
  closeIfOpen_ieErr s
@[simp] theorem errorCompletion_busy (e : CmdError) (s : State) : (errorCompletion e s).busy = false := rfl
@[simp] theorem errorCompletion_done (e : CmdError) (s : State) : (errorCompletion e s).done = true := rfl
@[simp] theorem errorCompletion_errf (e : CmdError) (s : State) : (errorCompletion e s).errf = true := rfl
@[simp] theorem errorCompletion_ovr (e : CmdError) (s : State) : (errorCompletion e s).ovr = s.ovr :=
  closeIfOpen_ovr s
@[simp] theorem errorCompletion_sessValid (e : CmdError) (s : State) :
    (errorCompletion e s).sessValid = false := closeIfOpen_sessValid s
@[simp] theorem errorCompletion_err (e : CmdError) (s : State) : (errorCompletion e s).err = errCode e := rfl
@[simp] theorem errorCompletion_detail (e : CmdError) (s : State) : (errorCompletion e s).detail = errDetail e := rfl
@[simp] theorem errorCompletion_lcmd (e : CmdError) (s : State) : (errorCompletion e s).lcmd = s.lcmd :=
  closeIfOpen_lcmd s
@[simp] theorem errorCompletion_sAlg (e : CmdError) (s : State) :
    (errorCompletion e s).sAlg = if s.sessValid then .blowfish else s.sAlg := closeIfOpen_sAlg s
@[simp] theorem errorCompletion_sDir (e : CmdError) (s : State) :
    (errorCompletion e s).sDir = if s.sessValid then .enc else s.sDir := closeIfOpen_sDir s
@[simp] theorem errorCompletion_sMode (e : CmdError) (s : State) :
    (errorCompletion e s).sMode = if s.sessValid then .ecb else s.sMode := closeIfOpen_sMode s
@[simp] theorem errorCompletion_nout (e : CmdError) (s : State) : (errorCompletion e s).nout = 0 := rfl
@[simp] theorem errorCompletion_keybuf (e : CmdError) (s : State) : (errorCompletion e s).keybuf = s.keybuf :=
  closeIfOpen_keybuf s
@[simp] theorem errorCompletion_ivbuf (e : CmdError) (s : State) : (errorCompletion e s).ivbuf = s.ivbuf :=
  closeIfOpen_ivbuf s
@[simp] theorem errorCompletion_dinbuf (e : CmdError) (s : State) :
    (errorCompletion e s).dinbuf = if s.sessValid then zeroBytes 16 else s.dinbuf := closeIfOpen_dinbuf s
@[simp] theorem errorCompletion_cv (e : CmdError) (s : State) :
    (errorCompletion e s).cv = if s.sessValid then zeroBytes 16 else s.cv := closeIfOpen_cv s
@[simp] theorem errorCompletion_doutbuf (e : CmdError) (s : State) : (errorCompletion e s).doutbuf = zeroBytes 16 := rfl
@[simp] theorem errorCompletion_bf (e : CmdError) (s : State) :
    (errorCompletion e s).bf = if s.sessValid then BFSchedule.zero else s.bf := closeIfOpen_bf s
@[simp] theorem errorCompletion_tf (e : CmdError) (s : State) :
    (errorCompletion e s).tf = if s.sessValid then TFSchedule.zero else s.tf := closeIfOpen_tf s
@[simp] theorem errorCompletion_agenda (e : CmdError) (s : State) : (errorCompletion e s).agenda = s.agenda :=
  closeIfOpen_agenda s
@[simp] theorem errorCompletion_replies (e : CmdError) (s : State) : (errorCompletion e s).replies = s.replies :=
  closeIfOpen_replies s

/-! ### keyschedEntry (R226) -/

@[simp] theorem keyschedEntry_ieDone (s : State) : (keyschedEntry s).ieDone = s.ieDone :=
  closeIfOpen_ieDone _
@[simp] theorem keyschedEntry_ieErr (s : State) : (keyschedEntry s).ieErr = s.ieErr :=
  closeIfOpen_ieErr _
@[simp] theorem keyschedEntry_busy (s : State) : (keyschedEntry s).busy = s.busy :=
  closeIfOpen_busy _
@[simp] theorem keyschedEntry_done (s : State) : (keyschedEntry s).done = s.done :=
  closeIfOpen_done _
@[simp] theorem keyschedEntry_errf (s : State) : (keyschedEntry s).errf = s.errf :=
  closeIfOpen_errf _
@[simp] theorem keyschedEntry_ovr (s : State) : (keyschedEntry s).ovr = s.ovr :=
  closeIfOpen_ovr _
@[simp] theorem keyschedEntry_sessValid (s : State) : (keyschedEntry s).sessValid = false :=
  closeIfOpen_sessValid _
@[simp] theorem keyschedEntry_err (s : State) : (keyschedEntry s).err = s.err :=
  closeIfOpen_err _
@[simp] theorem keyschedEntry_detail (s : State) : (keyschedEntry s).detail = s.detail :=
  closeIfOpen_detail _
@[simp] theorem keyschedEntry_lcmd (s : State) : (keyschedEntry s).lcmd = s.lcmd :=
  closeIfOpen_lcmd _
@[simp] theorem keyschedEntry_sAlg (s : State) :
    (keyschedEntry s).sAlg = if s.sessValid then .blowfish else s.sAlg := closeIfOpen_sAlg _
@[simp] theorem keyschedEntry_sDir (s : State) :
    (keyschedEntry s).sDir = if s.sessValid then .enc else s.sDir := closeIfOpen_sDir _
@[simp] theorem keyschedEntry_sMode (s : State) :
    (keyschedEntry s).sMode = if s.sessValid then .ecb else s.sMode := closeIfOpen_sMode _
@[simp] theorem keyschedEntry_nout (s : State) : (keyschedEntry s).nout = s.nout :=
  closeIfOpen_nout _
@[simp] theorem keyschedEntry_keybuf (s : State) : (keyschedEntry s).keybuf = zeroBytes 56 :=
  closeIfOpen_keybuf _
@[simp] theorem keyschedEntry_ivbuf (s : State) : (keyschedEntry s).ivbuf = s.ivbuf :=
  closeIfOpen_ivbuf _
@[simp] theorem keyschedEntry_dinbuf (s : State) :
    (keyschedEntry s).dinbuf = if s.sessValid then zeroBytes 16 else s.dinbuf := closeIfOpen_dinbuf _
@[simp] theorem keyschedEntry_cv (s : State) :
    (keyschedEntry s).cv = if s.sessValid then zeroBytes 16 else s.cv := closeIfOpen_cv _
@[simp] theorem keyschedEntry_doutbuf (s : State) : (keyschedEntry s).doutbuf = zeroBytes 16 := rfl
@[simp] theorem keyschedEntry_bf (s : State) :
    (keyschedEntry s).bf = if s.sessValid then BFSchedule.zero else s.bf := closeIfOpen_bf _
@[simp] theorem keyschedEntry_tf (s : State) :
    (keyschedEntry s).tf = if s.sessValid then TFSchedule.zero else s.tf := closeIfOpen_tf _
@[simp] theorem keyschedEntry_agenda (s : State) : (keyschedEntry s).agenda = s.agenda :=
  closeIfOpen_agenda _
@[simp] theorem keyschedEntry_replies (s : State) : (keyschedEntry s).replies = s.replies :=
  closeIfOpen_replies _

/-! ### deriveSchedule (R140, R184) -/

@[simp] theorem deriveSchedule_ieDone (a : Alg) (kb : List Byte) (s : State) :
    (deriveSchedule a kb s).ieDone = s.ieDone := by cases a <;> rfl
@[simp] theorem deriveSchedule_ieErr (a : Alg) (kb : List Byte) (s : State) :
    (deriveSchedule a kb s).ieErr = s.ieErr := by cases a <;> rfl
@[simp] theorem deriveSchedule_busy (a : Alg) (kb : List Byte) (s : State) :
    (deriveSchedule a kb s).busy = s.busy := by cases a <;> rfl
@[simp] theorem deriveSchedule_done (a : Alg) (kb : List Byte) (s : State) :
    (deriveSchedule a kb s).done = s.done := by cases a <;> rfl
@[simp] theorem deriveSchedule_errf (a : Alg) (kb : List Byte) (s : State) :
    (deriveSchedule a kb s).errf = s.errf := by cases a <;> rfl
@[simp] theorem deriveSchedule_ovr (a : Alg) (kb : List Byte) (s : State) :
    (deriveSchedule a kb s).ovr = s.ovr := by cases a <;> rfl
@[simp] theorem deriveSchedule_sessValid (a : Alg) (kb : List Byte) (s : State) :
    (deriveSchedule a kb s).sessValid = s.sessValid := by cases a <;> rfl
@[simp] theorem deriveSchedule_err (a : Alg) (kb : List Byte) (s : State) :
    (deriveSchedule a kb s).err = s.err := by cases a <;> rfl
@[simp] theorem deriveSchedule_detail (a : Alg) (kb : List Byte) (s : State) :
    (deriveSchedule a kb s).detail = s.detail := by cases a <;> rfl
@[simp] theorem deriveSchedule_lcmd (a : Alg) (kb : List Byte) (s : State) :
    (deriveSchedule a kb s).lcmd = s.lcmd := by cases a <;> rfl
@[simp] theorem deriveSchedule_sAlg (a : Alg) (kb : List Byte) (s : State) :
    (deriveSchedule a kb s).sAlg = s.sAlg := by cases a <;> rfl
@[simp] theorem deriveSchedule_sDir (a : Alg) (kb : List Byte) (s : State) :
    (deriveSchedule a kb s).sDir = s.sDir := by cases a <;> rfl
@[simp] theorem deriveSchedule_sMode (a : Alg) (kb : List Byte) (s : State) :
    (deriveSchedule a kb s).sMode = s.sMode := by cases a <;> rfl
@[simp] theorem deriveSchedule_nout (a : Alg) (kb : List Byte) (s : State) :
    (deriveSchedule a kb s).nout = s.nout := by cases a <;> rfl
@[simp] theorem deriveSchedule_keybuf (a : Alg) (kb : List Byte) (s : State) :
    (deriveSchedule a kb s).keybuf = s.keybuf := by cases a <;> rfl
@[simp] theorem deriveSchedule_ivbuf (a : Alg) (kb : List Byte) (s : State) :
    (deriveSchedule a kb s).ivbuf = s.ivbuf := by cases a <;> rfl
@[simp] theorem deriveSchedule_dinbuf (a : Alg) (kb : List Byte) (s : State) :
    (deriveSchedule a kb s).dinbuf = s.dinbuf := by cases a <;> rfl
@[simp] theorem deriveSchedule_cv (a : Alg) (kb : List Byte) (s : State) :
    (deriveSchedule a kb s).cv = s.cv := by cases a <;> rfl
@[simp] theorem deriveSchedule_doutbuf (a : Alg) (kb : List Byte) (s : State) :
    (deriveSchedule a kb s).doutbuf = s.doutbuf := by cases a <;> rfl
@[simp] theorem deriveSchedule_agenda (a : Alg) (kb : List Byte) (s : State) :
    (deriveSchedule a kb s).agenda = s.agenda := by cases a <;> rfl
@[simp] theorem deriveSchedule_replies (a : Alg) (kb : List Byte) (s : State) :
    (deriveSchedule a kb s).replies = s.replies := by cases a <;> rfl
@[simp] theorem deriveSchedule_bf (a : Alg) (kb : List Byte) (s : State) :
    (deriveSchedule a kb s).bf = match a with
      | .blowfish => bfDeriveSchedule kb
      | .twofish => s.bf := by cases a <;> rfl
@[simp] theorem deriveSchedule_tf (a : Alg) (kb : List Byte) (s : State) :
    (deriveSchedule a kb s).tf = match a with
      | .blowfish => s.tf
      | .twofish => tfDeriveSchedule kb := by cases a <;> rfl

/-- Two states with equal fields are equal. -/
theorem State.ext_fields {s t : State} (h1 : s.ieDone = t.ieDone) (h2 : s.ieErr = t.ieErr) (h3 : s.busy = t.busy)
    (h4 : s.done = t.done) (h5 : s.errf = t.errf) (h6 : s.ovr = t.ovr) (h7 : s.sessValid = t.sessValid)
    (h8 : s.err = t.err) (h9 : s.detail = t.detail) (h10 : s.lcmd = t.lcmd) (h11 : s.sAlg = t.sAlg)
    (h12 : s.sDir = t.sDir) (h13 : s.sMode = t.sMode) (h14 : s.nout = t.nout) (h15 : s.keybuf = t.keybuf)
    (h16 : s.ivbuf = t.ivbuf) (h17 : s.dinbuf = t.dinbuf) (h18 : s.cv = t.cv) (h19 : s.doutbuf = t.doutbuf)
    (h20 : s.bf = t.bf) (h21 : s.tf = t.tf) (h22 : s.agenda = t.agenda) (h23 : s.replies = t.replies) : s = t := by
  cases s
  cases t
  simp_all

end Sys2Proof.Machine
end

