-- ==== Sys2Proof/Laws/Commands.lean ====
section
/-! SUPPORT. What each command can answer, said once: every proof about a command starts from these and does not
unfold its meaning. -/

namespace Sys2Proof.Machine

/-! ### Key policy (R227) -/

/-- R105, R227: the combinations that KEYSCHED accepts. -/
def KeyLegal (alg keylen : Nat) : Prop :=
  (alg = 0 ∧ 4 ≤ keylen ∧ keylen ≤ 56) ∨ (alg = 1 ∧ (keylen = 16 ∨ keylen = 24 ∨ keylen = 32))

theorem keyschedError_of_unknown {alg : Nat} (h : 2 ≤ alg) (keylen : Nat) :
    keyschedError alg keylen = some .unknownAlgorithm := by simp [keyschedError, h]

theorem keyschedError_blowfish (keylen : Nat) :
    keyschedError 0 keylen =
      if keylen < 4 then some .keyTooShort else if 56 < keylen then some .invalidKeyLength else none := rfl

theorem keyschedError_twofish (keylen : Nat) :
    keyschedError 1 keylen =
      if keylen < 16 then some .keyTooShort else if keylen = 16 ∨ keylen = 24 ∨ keylen = 32 then none
      else some .invalidKeyLength := by
  simp [keyschedError, keyPolicy, algOf, Config.tfKeyMin, Config.tfKeyLengths]

/-- KEYSCHED reports no error exactly on a known algorithm and a legal key length. -/
theorem keyschedError_eq_none_iff (alg keylen : Nat) : keyschedError alg keylen = none ↔ KeyLegal alg keylen := by
  match alg with
  | 0 =>
    rw [keyschedError_blowfish, KeyLegal]
    split
    · simp; omega
    · split <;> simp <;> omega
  | 1 =>
    rw [keyschedError_twofish, KeyLegal]
    split
    · simp; omega
    · split <;> simp <;> omega
  | n + 2 => simp [keyschedError_of_unknown (Nat.le_add_left 2 n), KeyLegal]

/-! ### The block step (R231-R235) -/

@[simp] theorem modeBlock_ecb_enc {s : State} (hm : s.sMode = .ecb) (hd : s.sDir = .enc) (a : Alg) (x : Block a) :
    modeBlock a s x = (encryptWith s.bf s.tf a x, chainingValue a s) := by simp [modeBlock, chain, hm, hd]

@[simp] theorem modeBlock_ecb_dec {s : State} (hm : s.sMode = .ecb) (hd : s.sDir = .dec) (a : Alg) (x : Block a) :
    modeBlock a s x = (decryptWith s.bf s.tf a x, chainingValue a s) := by simp [modeBlock, chain, hm, hd]

@[simp] theorem modeBlock_cbc_enc {s : State} (hm : s.sMode = .cbc) (hd : s.sDir = .enc) (a : Alg) (x : Block a) :
    modeBlock a s x = (encryptWith s.bf s.tf a (xorBytes x (chainingValue a s)),
      encryptWith s.bf s.tf a (xorBytes x (chainingValue a s))) := by simp [modeBlock, chain, hm, hd]

@[simp] theorem modeBlock_cbc_dec {s : State} (hm : s.sMode = .cbc) (hd : s.sDir = .dec) (a : Alg) (x : Block a) :
    modeBlock a s x = (xorBytes (decryptWith s.bf s.tf a x) (chainingValue a s), x) := by
  simp [modeBlock, chain, hm, hd]

/-- R234, R235: a block step in the decrypt direction undoes one in the encrypt direction and leaves the same
chaining value, where D undoes E. -/
theorem chain_dec_enc {n : Nat} {e d : Vector Byte n → Vector Byte n} (h : ∀ x, d (e x) = x) (mode : Mode)
    (c x : Vector Byte n) :
    chain e d mode .dec c (chain e d mode .enc c x).1 = (x, (chain e d mode .enc c x).2) := by
  cases mode <;> simp [chain, h]

/-! ### Padding (R260-R264) -/

/-- R264, as a proposition. -/
theorem padValid_iff (a : Alg) (y : Block a) :
    padValid a y = true ↔ 1 ≤ padCount a y ∧ padCount a y ≤ blockSize a ∧
      ∀ i : Fin (blockSize a), blockSize a - padCount a y ≤ i.val → (y[i]).toNat = padCount a y := by
  simp only [padValid, Bool.and_eq_true, and_assoc]
  rw [decide_eq_true_iff, decide_eq_true_iff, decide_eq_true_iff]

@[simp] theorem padBlock_getElem (a : Alg) (n : Nat) (x : Block a) (i : Nat) (hi : i < blockSize a) :
    (padBlock a n x)[i] = if i < n then x[i] else BitVec.ofNat 8 (blockSize a - n) := by simp [padBlock]

/-- R260, R263: the last byte of a padded block is the count of its pad. -/
theorem padCount_padBlock (a : Alg) (n : Nat) (hn : n < blockSize a) (x : Block a) :
    padCount a (padBlock a n x) = blockSize a - n := by
  have := blockSize_le a
  have := blockSize_pos a
  simp only [padCount, padBlock_getElem, show ¬ blockSize a - 1 < n by omega, if_false, BitVec.toNat_ofNat]
  omega

/-! ### The answers of the commands, by case -/

theorem exec_nop (s : State) : exec .nop s = .next (complete 0 s) := rfl

theorem exec_zeroize (s : State) : exec .zeroize s = .next (complete 0 (clearBuffers (closeIfOpen s))) := rfl

theorem exec_keysched_error {alg keylen : Nat} {e : CmdError} (h : keyschedError alg keylen = some e) (dir : Dir)
    (mode : Mode) (s : State) : exec (.keysched alg dir mode keylen) s = .next (errorCompletion e (keyschedEntry s)) := by
  simp only [exec, execKeysched, h, raise]

theorem exec_keysched_ok {alg keylen : Nat} (h : KeyLegal alg keylen) (dir : Dir) (mode : Mode) (s : State) :
    exec (.keysched alg dir mode keylen) s = .next (complete 0
      (openSession (algOf alg) dir mode (deriveSchedule (algOf alg) (keyBytes s keylen) (keyschedEntry s)))) := by
  simp only [exec, execKeysched, (keyschedError_eq_none_iff alg keylen).mpr h]

theorem exec_block_closed {s : State} (h : s.sessValid = false) :
    exec .block s = .next (errorCompletion .noSession s) := by
  simp [exec, execBlock, h, raise]

theorem exec_block_open {s : State} (h : s.sessValid = true) {a : Alg} (ha : s.sAlg = a) :
    exec .block s = .next (complete (blockSize a)
      (setOutput a (modeBlock a s (inputBlock a s)).1 (setChaining a (modeBlock a s (inputBlock a s)).2 s))) := by
  subst ha
  simp [exec, execBlock, h]

theorem exec_final_closed (n : Nat) {s : State} (h : s.sessValid = false) :
    exec (.final n) s = .next (errorCompletion .noSession s) := by
  simp [exec, execFinal, h, raise]

theorem exec_final_enc_count {n : Nat} {s : State} (h : s.sessValid = true) (hd : s.sDir = .enc)
    (hn : blockSize s.sAlg ≤ n) : exec (.final n) s = .next (errorCompletion .invalidBlockSize s) := by
  simp [exec, execFinal, h, hd, finalEncrypt, hn, raise]

theorem exec_final_enc {n : Nat} {s : State} (h : s.sessValid = true) (hd : s.sDir = .enc) {a : Alg}
    (ha : s.sAlg = a) (hn : n < blockSize a) :
    exec (.final n) s = .next (complete (blockSize a) (closeSession
      (setOutput a (modeBlock a s (padBlock a n (inputBlock a s))).1
        (setChaining a (modeBlock a s (padBlock a n (inputBlock a s))).2 s)))) := by
  subst ha
  simp [exec, execFinal, h, hd, finalEncrypt, Nat.not_le.mpr hn]

theorem exec_final_dec_count {n : Nat} {s : State} (h : s.sessValid = true) (hd : s.sDir = .dec) (hn : n ≠ 0) :
    exec (.final n) s = .next (errorCompletion .badField s) := by
  simp [exec, execFinal, h, hd, finalDecrypt, hn, raise]

theorem exec_final_dec_ok {s : State} (h : s.sessValid = true) (hd : s.sDir = .dec) {a : Alg} (ha : s.sAlg = a)
    {y : Block a} (hy : (modeBlock a s (inputBlock a s)).1 = y) (hp : padValid a y = true) :
    exec (.final 0) s = .next (complete (blockSize a - padCount a y) (closeSession
      { setChaining a (modeBlock a s (inputBlock a s)).2 s with
        doutbuf := messagePart a (blockSize a - padCount a y) y })) := by
  subst ha
  subst hy
  simp [exec, execFinal, h, hd, finalDecrypt, hp]

theorem exec_final_dec_bad {s : State} (h : s.sessValid = true) (hd : s.sDir = .dec) {a : Alg} (ha : s.sAlg = a)
    {y : Block a} (hy : (modeBlock a s (inputBlock a s)).1 = y) (hp : padValid a y = false) :
    exec (.final 0) s = .next
      (errorCompletion .invalidPadding (setChaining a (modeBlock a s (inputBlock a s)).2 s)) := by
  subst ha
  subst hy
  simp [exec, execFinal, h, hd, finalDecrypt, hp, raise]

/-- Every answer of BLOCK. -/
theorem exec_block_cases (s : State) :
    (s.sessValid = false ∧ exec .block s = .next (errorCompletion .noSession s)) ∨
    (s.sessValid = true ∧ ∃ y c : Block s.sAlg, modeBlock s.sAlg s (inputBlock s.sAlg s) = (y, c) ∧
      exec .block s = .next (complete (blockSize s.sAlg) (setOutput s.sAlg y (setChaining s.sAlg c s)))) := by
  cases h : s.sessValid
  · exact .inl ⟨rfl, exec_block_closed h⟩
  · exact .inr ⟨rfl, _, _, rfl, exec_block_open h rfl⟩

/-- Every answer of FINAL. -/
theorem exec_final_cases (n : Nat) (s : State) :
    (s.sessValid = false ∧ exec (.final n) s = .next (errorCompletion .noSession s)) ∨
    (s.sessValid = true ∧ s.sDir = .enc ∧ blockSize s.sAlg ≤ n ∧
      exec (.final n) s = .next (errorCompletion .invalidBlockSize s)) ∨
    (s.sessValid = true ∧ s.sDir = .enc ∧ n < blockSize s.sAlg ∧ ∃ y c : Block s.sAlg,
      modeBlock s.sAlg s (padBlock s.sAlg n (inputBlock s.sAlg s)) = (y, c) ∧ exec (.final n) s =
        .next (complete (blockSize s.sAlg) (closeSession (setOutput s.sAlg y (setChaining s.sAlg c s))))) ∨
    (s.sessValid = true ∧ s.sDir = .dec ∧ n ≠ 0 ∧ exec (.final n) s = .next (errorCompletion .badField s)) ∨
    (s.sessValid = true ∧ s.sDir = .dec ∧ n = 0 ∧ ∃ y c : Block s.sAlg,
      modeBlock s.sAlg s (inputBlock s.sAlg s) = (y, c) ∧
      ((padValid s.sAlg y = true ∧ exec (.final n) s = .next (complete (blockSize s.sAlg - padCount s.sAlg y)
          (closeSession { setChaining s.sAlg c s with
            doutbuf := messagePart s.sAlg (blockSize s.sAlg - padCount s.sAlg y) y }))) ∨
        (padValid s.sAlg y = false ∧
          exec (.final n) s = .next (errorCompletion .invalidPadding (setChaining s.sAlg c s))))) := by
  cases h : s.sessValid
  · exact .inl ⟨rfl, exec_final_closed n h⟩
  cases hd : s.sDir
  · rcases Nat.lt_or_ge n (blockSize s.sAlg) with hn | hn
    · exact .inr (.inr (.inl ⟨rfl, rfl, hn, _, _, rfl, exec_final_enc h hd rfl hn⟩))
    · exact .inr (.inl ⟨rfl, rfl, hn, exec_final_enc_count h hd hn⟩)
  · by_cases hn : n = 0
    · subst hn
      refine .inr (.inr (.inr (.inr ⟨rfl, rfl, rfl, (modeBlock s.sAlg s (inputBlock s.sAlg s)).1,
        (modeBlock s.sAlg s (inputBlock s.sAlg s)).2, rfl, ?_⟩)))
      cases hp : padValid s.sAlg (modeBlock s.sAlg s (inputBlock s.sAlg s)).1
      · exact .inr ⟨rfl, exec_final_dec_bad h hd rfl rfl hp⟩
      · exact .inl ⟨rfl, exec_final_dec_ok h hd rfl rfl hp⟩
    · exact .inr (.inr (.inr (.inl ⟨rfl, rfl, hn, exec_final_dec_count h hd hn⟩)))

/-- Every answer of KEYSCHED. -/
theorem exec_keysched_cases (alg : Nat) (dir : Dir) (mode : Mode) (keylen : Nat) (s : State) :
    (∃ e, keyschedError alg keylen = some e ∧
      exec (.keysched alg dir mode keylen) s = .next (errorCompletion e (keyschedEntry s))) ∨
    (KeyLegal alg keylen ∧ exec (.keysched alg dir mode keylen) s = .next (complete 0
      (openSession (algOf alg) dir mode (deriveSchedule (algOf alg) (keyBytes s keylen) (keyschedEntry s))))) := by
  cases h : keyschedError alg keylen with
  | some e => exact .inl ⟨e, rfl, exec_keysched_error h dir mode s⟩
  | none =>
    have hk := (keyschedError_eq_none_iff alg keylen).mp h
    exact .inr ⟨hk, exec_keysched_ok hk dir mode s⟩

/-! ### Every command, and every step -/

/-- What no command changes: CTRL, ERRF before the completion, OVR, LCMD, and the outside of the engine. -/
def SameOutside (u s : State) : Prop :=
  u.ieDone = s.ieDone ∧ u.ieErr = s.ieErr ∧ u.errf = s.errf ∧ u.ovr = s.ovr ∧ u.lcmd = s.lcmd ∧
    u.agenda = s.agenda ∧ u.replies = s.replies

/-- R285, R286: every command ends in one of the two completions, over a state that differs from the one it began
in by nothing of `SameOutside`. -/
theorem exec_completes (i : Instr) (s : State) :
    (∃ n u, exec i s = .next (complete n u) ∧ SameOutside u s) ∨
    (∃ e u, exec i s = .next (errorCompletion e u) ∧ SameOutside u s) := by
  cases i with
  | nop => exact .inl ⟨0, s, rfl, by simp [SameOutside]⟩
  | zeroize => exact .inl ⟨0, _, exec_zeroize s, by simp [SameOutside]⟩
  | keysched alg dir mode keylen =>
    rcases exec_keysched_cases alg dir mode keylen s with ⟨e, -, h⟩ | ⟨-, h⟩
    · exact .inr ⟨e, _, h, by simp [SameOutside]⟩
    · refine .inl ⟨0, _, h, ?_⟩
      cases algOf alg <;> simp [SameOutside, deriveSchedule]
  | block =>
    rcases exec_block_cases s with ⟨-, h⟩ | ⟨-, y, ch, -, h⟩
    · exact .inr ⟨_, _, h, by simp [SameOutside]⟩
    · exact .inl ⟨_, _, h, by simp [SameOutside]⟩
  | final n =>
    rcases exec_final_cases n s with ⟨-, h⟩ | ⟨-, -, -, h⟩ | ⟨-, -, -, y, ch, -, h⟩ | ⟨-, -, -, h⟩ |
      ⟨-, -, -, y, ch, -, ⟨-, h⟩ | ⟨-, h⟩⟩
    · exact .inr ⟨_, _, h, by simp [SameOutside]⟩
    · exact .inr ⟨_, _, h, by simp [SameOutside]⟩
    · exact .inl ⟨_, _, h, by simp [SameOutside]⟩
    · exact .inr ⟨_, _, h, by simp [SameOutside]⟩
    · exact .inl ⟨_, _, h, by simp [SameOutside]⟩
    · exact .inr ⟨_, _, h, by simp [SameOutside]⟩

/-- R224: the same of a latched word, which may also decode to no command. -/
theorem runCommand_completes (w : Word) (s : State) :
    (∃ n u, runCommand w s = .next (complete n u) ∧ SameOutside u s) ∨
    (∃ e u, runCommand w s = .next (errorCompletion e u) ∧ SameOutside u s) := by
  unfold runCommand
  split
  · exact exec_completes _ s
  · exact .inr ⟨_, _, rfl, by simp [SameOutside]⟩

@[simp] theorem errCode_ne_zero (e : CmdError) : (errCode e = 0#4) = False := by cases e <;> simp [errCode]

theorem runCommand_ok {w : Word} {i : Instr} (h : decode w = .ok i) (s : State) : runCommand w s = exec i s := by
  simp only [runCommand, h]

theorem runCommand_error {w : Word} {e : DecodeError} (h : decode w = .error e) (s : State) :
    runCommand w s = .next (errorCompletion (decodeFault e) s) := by simp only [runCommand, h, raise]

/-- Every step, by what stands first on the agenda. -/
theorem step_empty {s : State} (h : s.agenda = []) : step s = engineStep s := by simp only [step, stepWith, h]

theorem step_access {s : State} {a : BusAccess} {rest : List Event} (h : s.agenda = .access a :: rest) :
    step s = .next (performAccess a { s with agenda := rest }) := by simp only [step, stepWith, h, performEvent]

theorem step_completion {s : State} {rest : List Event} (h : s.agenda = .completion :: rest) :
    step s = engineStep { s with agenda := rest } := by simp only [step, stepWith, h, performEvent]

theorem step_resetPulse {s : State} {rest : List Event} (h : s.agenda = .resetPulse :: rest) :
    step s = .next (resetEngine { s with agenda := rest }) := by simp only [step, stepWith, h, performEvent]

theorem engineStep_busy {s : State} (h : s.busy = true) : engineStep s = runCommand s.lcmd s := by
  simp only [engineStep, h, if_true, fetchCommand]

theorem engineStep_idle {s : State} (h : s.busy = false) : engineStep s = .next s := by
  simp [engineStep, h]

/-- The engine step always answers a next state. -/
theorem engineStep_next (s : State) : ∃ t, engineStep s = .next t := by
  cases h : s.busy with
  | false => exact ⟨s, engineStep_idle h⟩
  | true =>
    rw [engineStep_busy h]
    rcases runCommand_completes s.lcmd s with ⟨_, _, h, -⟩ | ⟨_, _, h, -⟩ <;> exact ⟨_, h⟩

/-- The state in which the next event happens: that event taken off the agenda. -/
def afterEvent (s : State) : State := { s with agenda := s.agenda.tail }

theorem afterEvent_of_nil {s : State} (h : s.agenda = []) : afterEvent s = s := by
  cases s
  simp_all [afterEvent]

theorem afterEvent_of_cons {s : State} {e : Event} {rest : List Event} (h : s.agenda = e :: rest) :
    afterEvent s = { s with agenda := rest } := by
  simp [afterEvent, h]

/-- R224, at the agenda: the completion of the command in progress. -/
theorem step_completion_busy {s : State} {rest : List Event} (h : s.agenda = .completion :: rest)
    (hb : s.busy = true) : step s = runCommand s.lcmd { s with agenda := rest } := by
  rw [step_completion h]
  exact engineStep_busy (s := { s with agenda := rest }) hb

/-- The step, said once: nothing, a command, an access or a reset. -/
theorem step_cases (s : State) :
    (s.busy = false ∧ step s = .next (afterEvent s)) ∨
    (s.busy = true ∧ (s.agenda = [] ∨ ∃ rest, s.agenda = .completion :: rest) ∧
      step s = runCommand s.lcmd (afterEvent s)) ∨
    (∃ a rest, s.agenda = .access a :: rest ∧ step s = .next (performAccess a (afterEvent s))) ∨
    (∃ rest, s.agenda = .resetPulse :: rest ∧ step s = .next (resetEngine (afterEvent s))) := by
  cases ha : s.agenda with
  | nil =>
    rw [step_empty ha, afterEvent_of_nil ha]
    rcases Bool.eq_false_or_eq_true s.busy with hb | hb
    · exact .inr (.inl ⟨hb, .inl rfl, engineStep_busy hb⟩)
    · exact .inl ⟨hb, engineStep_idle hb⟩
  | cons e rest =>
    rw [afterEvent_of_cons ha]
    cases e with
    | access a => exact .inr (.inr (.inl ⟨a, rest, rfl, step_access ha⟩))
    | resetPulse => exact .inr (.inr (.inr ⟨rest, rfl, step_resetPulse ha⟩))
    | completion =>
      rw [step_completion ha]
      rcases Bool.eq_false_or_eq_true s.busy with hb | hb
      · exact .inr (.inl ⟨hb, .inr ⟨rest, rfl⟩, engineStep_busy (s := { s with agenda := rest }) hb⟩)
      · exact .inl ⟨hb, engineStep_idle (s := { s with agenda := rest }) hb⟩

end Sys2Proof.Machine
end

