-- ==== Sys2Proof/Laws/Encoding.lean ====
section
/-! SUPPORT. Command words as numbers: the fields of a word by division, the word of a command by addition, and the
must-be-zero masks as bounds. -/

namespace Sys2Proof

/-- R107. -/
theorem opField_eq (w : Word) : opField w = w.toNat % 16 := by simp [opField, BitVec.extractLsb'_toNat]

theorem algField_eq (w : Word) : algField w = w.toNat / 16 % 4 := by
  simp [algField, BitVec.extractLsb'_toNat, Nat.shiftRight_eq_div_pow]

theorem keylenField_eq (w : Word) : keylenField w = w.toNat / 256 % 64 := by
  simp [keylenField, BitVec.extractLsb'_toNat, Nat.shiftRight_eq_div_pow]

theorem nbytesField_eq (w : Word) : nbytesField w = w.toNat / 65536 % 16 := by
  simp [nbytesField, BitVec.extractLsb'_toNat, Nat.shiftRight_eq_div_pow]

theorem getLsbD_eq_decide (w : Word) (i : Nat) : w.getLsbD i = decide (w.toNat / 2 ^ i % 2 = 1) := by
  rw [BitVec.getLsbD, Nat.testBit_eq_decide_div_mod_eq]

theorem dirField_eq (w : Word) : dirField w = if w.toNat / 64 % 2 = 0 then .enc else .dec := by
  simp only [dirField, getLsbD_eq_decide]
  rcases Nat.mod_two_eq_zero_or_one (w.toNat / 2 ^ 6) with h | h <;> simp_all

theorem modeField_eq (w : Word) : modeField w = if w.toNat / 128 % 2 = 0 then .ecb else .cbc := by
  simp only [modeField, getLsbD_eq_decide]
  rcases Nat.mod_two_eq_zero_or_one (w.toNat / 2 ^ 7) with h | h <;> simp_all

/-- R108: bits of a mask that are all ones are a field that must be 0. -/
theorem field_eq_zero_of_mask {w m : Word} (h : w &&& m = 0) (k n : Nat)
    (hm : m.extractLsb' k n = BitVec.allOnes n) : w.toNat / 2 ^ k % 2 ^ n = 0 := by
  have h' := congrArg (fun x : Word => x.extractLsb' k n) h
  simp only [BitVec.extractLsb'_and, hm, BitVec.and_allOnes] at h'
  have := congrArg BitVec.toNat h'
  simpa [BitVec.extractLsb'_toNat, Nat.shiftRight_eq_div_pow] using this

/-- R108, the masks 0xFFFFFFF0, 0xFFFFC000 and 0xFFF0FFF0. -/
theorem mask_op_iff (w : Word) : w &&& 0xFFFFFFF0 = 0 ↔ w.toNat < 16 := by
  constructor
  · intro h
    have := field_eq_zero_of_mask h 4 28 (by decide)
    have := w.isLt
    omega
  · intro h
    have : ∀ x : Fin 16, BitVec.ofNat 32 x.val &&& 0xFFFFFFF0#32 = 0 := by decide
    have := this ⟨w.toNat, h⟩
    simpa using this

theorem mask_keysched (w : Word) (h : w &&& 0xFFFFC000 = 0) : w.toNat < 16384 := by
  have := field_eq_zero_of_mask h 14 18 (by decide)
  have := w.isLt
  omega

theorem mask_final (w : Word) (h : w &&& 0xFFF0FFF0 = 0) : w.toNat / 16 % 4096 = 0 ∧ w.toNat < 1048576 := by
  have h1 := field_eq_zero_of_mask h 4 12 (by decide)
  have h2 := field_eq_zero_of_mask h 20 12 (by decide)
  have := w.isLt
  omega

/-- R110: the word of a well-formed KEYSCHED, as a sum of its fields. -/
theorem encode_keysched_toNat (alg keylen : Nat) (dir : Dir) (mode : Mode) (ha : alg < 4) (hk : keylen < 64) :
    (encode (.keysched alg dir mode keylen)).toNat =
      1 + 16 * alg + 64 * (dirBit dir).toNat + 128 * (modeBit mode).toNat + 256 * keylen := by
  have : ∀ (a : Fin 4) (d : Dir) (m : Mode) (k : Fin 64), (encode (.keysched a.val d m k.val)).toNat =
      1 + 16 * a.val + 64 * (dirBit d).toNat + 128 * (modeBit m).toNat + 256 * k.val := by
    intro a d m k
    cases d <;> cases m <;> revert a k <;> decide +kernel
  exact this ⟨alg, ha⟩ dir mode ⟨keylen, hk⟩

/-- R110: the word of a well-formed FINAL. -/
theorem encode_final_toNat (n : Nat) (h : n < 16) : (encode (.final n)).toNat = 3 + 65536 * n := by
  have : ∀ k : Fin 16, (encode (.final k.val)).toNat = 3 + 65536 * k.val := by decide
  exact this ⟨n, h⟩

/-- R109, by case of the opcode. -/
theorem decode_badOpcode {w : Word} (h : 5 ≤ opField w) : decode w = .error .badOpcode := by simp only [decode, h, if_true]

theorem decode_badField {w : Word} (h : opField w < 5) (hm : w &&& mbzMask (opField w) ≠ 0) :
    decode w = .error .badField := by
  simp only [decode, Nat.not_le.mpr h, if_false, if_pos hm]

theorem decode_dispatch {w : Word} (h : opField w < 5) (hm : w &&& mbzMask (opField w) = 0) :
    decode w = .ok (match opField w with
      | 0 => .nop
      | 1 => .keysched (algField w) (dirField w) (modeField w) (keylenField w)
      | 2 => .block
      | 3 => .final (nbytesField w)
      | _ => .zeroize) := by
  simp only [decode, Nat.not_le.mpr h, if_false, hm, ne_eq, not_true_eq_false]
  split <;> simp_all

/-- R111: every word is in exactly one class. -/
theorem decode_cases (w : Word) :
    (5 ≤ w.toNat % 16 ∧ decode w = .error .badOpcode) ∨
    (w.toNat % 16 < 5 ∧ w &&& mbzMask (w.toNat % 16) ≠ 0 ∧ decode w = .error .badField) ∨
    (w.toNat = 0 ∧ decode w = .ok .nop) ∨
    (w.toNat % 16 = 1 ∧ w.toNat < 16384 ∧
      decode w = .ok (.keysched (algField w) (dirField w) (modeField w) (keylenField w))) ∨
    (w.toNat = 2 ∧ decode w = .ok .block) ∨
    (w.toNat % 16 = 3 ∧ w.toNat / 16 % 4096 = 0 ∧ w.toNat < 1048576 ∧ decode w = .ok (.final (nbytesField w))) ∨
    (w.toNat = 4 ∧ decode w = .ok .zeroize) := by
  have ho := opField_eq w
  by_cases h5 : 5 ≤ opField w
  · exact .inl ⟨ho ▸ h5, decode_badOpcode h5⟩
  by_cases hm : w &&& mbzMask (opField w) = 0
  · have hd := decode_dispatch (Nat.not_le.mp h5) hm
    have : opField w = 0 ∨ opField w = 1 ∨ opField w = 2 ∨ opField w = 3 ∨ opField w = 4 := by omega
    rcases this with h | h | h | h | h <;> rw [h] at hd hm <;> simp only [mbzMask] at hm hd
    · have := (mask_op_iff w).mp hm
      exact .inr (.inr (.inl ⟨by omega, hd⟩))
    · exact .inr (.inr (.inr (.inl ⟨by omega, mask_keysched w hm, hd⟩)))
    · have := (mask_op_iff w).mp hm
      exact .inr (.inr (.inr (.inr (.inl ⟨by omega, hd⟩))))
    · have := mask_final w hm
      exact .inr (.inr (.inr (.inr (.inr (.inl ⟨by omega, this.1, this.2, hd⟩)))))
    · have := (mask_op_iff w).mp hm
      exact .inr (.inr (.inr (.inr (.inr (.inr ⟨by omega, hd⟩)))))
  · exact .inr (.inl ⟨by omega, ho ▸ hm, decode_badField (Nat.not_le.mp h5) hm⟩)

end Sys2Proof
end

