-- ==== Sys2Proof/Laws/Flags.lean ====
section
/-! SUPPORT. The bits of the words in which software sees the flags and fields. -/

namespace Sys2Proof.Machine

theorem flagBit_getLsbD (b : Bool) (n i : Nat) (hn : n < 32) : (flagBit b n).getLsbD i = (b && decide (i = n)) := by
  simp only [flagBit, BitVec.getLsbD_shiftLeft, BitVec.getLsbD_setWidth, BitVec.getLsbD_ofBool]
  by_cases h : i = n
  · subst h
    simp [hn]
  · rcases Nat.lt_or_ge i n with h' | h'
    · simp [h, h']
    · simp [h, show ¬ i - n = 0 by omega]

/-- R38: STATUS bit by bit. -/
theorem statusWord_getLsbD (s : State) (i : Nat) :
    (statusWord s).getLsbD i =
      if i = 0 then s.busy else if i = 1 then s.done else if i = 2 then s.errf else if i = 3 then s.ovr
      else if i = 4 then s.sessValid else if i < 8 then false else if i < 12 then s.err.getLsbD (i - 8)
      else if i < 16 then false else if i < 24 then s.detail.getLsbD (i - 16) else false := by
  rcases Nat.lt_or_ge i 32 with h | h
  · simp only [statusWord, BitVec.getLsbD_or, BitVec.getLsbD_shiftLeft, BitVec.getLsbD_setWidth]
    rw [flagBit_getLsbD _ _ _ (by decide), flagBit_getLsbD _ _ _ (by decide), flagBit_getLsbD _ _ _ (by decide),
      flagBit_getLsbD _ _ _ (by decide), flagBit_getLsbD _ _ _ (by decide)]
    interval_cases i <;> simp
  · rw [BitVec.getLsbD_of_ge _ _ h]
    simp [show ¬ i = 0 by omega, show ¬ i = 1 by omega, show ¬ i = 2 by omega, show ¬ i = 3 by omega,
      show ¬ i = 4 by omega, show ¬ i < 8 by omega, show ¬ i < 12 by omega, show ¬ i < 16 by omega,
      show ¬ i < 24 by omega]

end Sys2Proof.Machine
end

