-- ==== Sys2Proof/Laws/Port.lean ====
section
/-! SUPPORT. What an access to the register window can change, said once. -/

namespace Sys2Proof.Machine

/-- R44, R47, R52, R78: what only a completion or reset writes. -/
def SameResults (t s : State) : Prop :=
  t.err = s.err ∧ t.detail = s.detail ∧ t.nout = s.nout ∧ t.doutbuf = s.doutbuf ∧ t.sessValid = s.sessValid ∧
    t.sAlg = s.sAlg ∧ t.sDir = s.sDir ∧ t.sMode = s.sMode ∧ t.cv = s.cv ∧ t.bf = s.bf ∧ t.tf = s.tf

theorem SameResults.refl (s : State) : SameResults s s := by simp [SameResults]

theorem unlessBusy_busy {s : State} (h : s.busy = true) (f : State → State) :
    unlessBusy f s = { s with ovr := true } := by simp only [unlessBusy, h, if_true]

theorem unlessBusy_idle {s : State} (h : s.busy = false) (f : State → State) : unlessBusy f s = f s := by
  simp [unlessBusy, h]

/-- A register write, said once: what it leaves, and how it can move the bits of STATUS. ERRF and OVR fall only by a
STATUS write (R38), OVR rises only while the engine is busy (R42), BUSY never falls and a new BUSY clears DONE
(R223). -/
theorem regWrite_frame (r : Reg) (v : Word) (s : State) :
    SameResults (regWrite r v s) s ∧ (regWrite r v s).agenda = s.agenda ∧ (regWrite r v s).replies = s.replies ∧
    (regWrite r v s).errf = (if r = .status then s.errf && !v.getLsbD 2 else s.errf) ∧
    ((regWrite r v s).ovr = s.ovr ∨ (r = .status ∧ (regWrite r v s).ovr = (s.ovr && !v.getLsbD 3)) ∨
      (s.busy = true ∧ (regWrite r v s).ovr = true)) ∧
    (((regWrite r v s).busy = s.busy ∧ ((regWrite r v s).done = true → s.done = true)) ∨
      (r = .cmd ∧ s.busy = false ∧ (regWrite r v s).busy = true ∧ (regWrite r v s).done = false)) := by
  rcases Bool.eq_false_or_eq_true s.busy with hb | hb <;> cases r <;>
    simp +contextual [regWrite, unlessBusy, hb, SameResults, writeCtrl, clearStatus, latchCommand]

/-- R73: an access to the window, by case: refused, a read, or a write. -/
theorem windowAccess_cases (off size : Nat) (k : AccessKind) (s : State) :
    (admitted off size = false ∧ windowAccess off size k s = (s, .busError)) ∨
    (admitted off size = true ∧ k = .read ∧ windowAccess off size k s = (s, .data (regRead (regAt off) s))) ∨
    (admitted off size = true ∧ ∃ v, k = .write v ∧
      windowAccess off size k s = (regWrite (regAt off) v s, .written)) := by
  unfold windowAccess
  cases h : admitted off size
  · simp
  · cases k <;> simp

theorem windowAccess_read {off : Nat} (h : off % 4 = 0) (s : State) :
    windowAccess off 4 .read s = (s, .data (regRead (regAt off) s)) := by simp [windowAccess, admitted, h]

theorem windowAccess_write {off : Nat} (h : off % 4 = 0) (v : Word) (s : State) :
    windowAccess off 4 (.write v) s = (regWrite (regAt off) v s, .written) := by simp [windowAccess, admitted, h]

/-- An access, said once: it changes nothing, or it is the write of one register. -/
theorem portAccess_cases (a : BusAccess) (s : State) :
    ((portAccess a s).1 = s) ∨
    (∃ v, reaches a = true ∧ admitted (a.addr - Config.base) a.size = true ∧ a.kind = .write v ∧
      (portAccess a s).1 = regWrite (regAt (a.addr - Config.base)) v s) := by
  unfold portAccess
  cases hr : reaches a
  · exact .inl rfl
  · rcases windowAccess_cases (a.addr - Config.base) a.size a.kind s with ⟨-, h⟩ | ⟨-, -, h⟩ | ⟨ha, v, hk, h⟩
    · exact .inl (by simp [h])
    · exact .inl (by simp [h])
    · exact .inr ⟨v, rfl, ha, hk, by simp [h]⟩

/-- R71, R294: an access at an offset of the window reaches the engine, from any master that the platform lets
through. -/
theorem reaches_window {m : Master} (hm : mayReach m = true) {off : Nat} (h : off < 4096) (size : Nat) (k : AccessKind) :
    reaches { master := m, addr := Config.base + off, size := size, kind := k } = true := by
  simp [reaches, hm, Config.windowBytes, h]

/-- R294: what an access does is the same for every such master. -/
theorem portAccess_window {m : Master} (hm : mayReach m = true) {off : Nat} (h : off < 4096) (size : Nat)
    (k : AccessKind) (s : State) :
    portAccess { master := m, addr := Config.base + off, size := size, kind := k } s =
      windowAccess off size k s := by
  simp [portAccess, reaches_window hm h]

theorem portAccess_host {off : Nat} (h : off < 4096) (size : Nat) (k : AccessKind) (s : State) :
    portAccess { master := .host, addr := Config.base + off, size := size, kind := k } s =
      windowAccess off size k s := portAccess_window rfl h size k s

@[simp] theorem performAccess_ieDone (a : BusAccess) (s : State) :
    (performAccess a s).ieDone = (portAccess a s).1.ieDone := rfl
@[simp] theorem performAccess_ieErr (a : BusAccess) (s : State) :
    (performAccess a s).ieErr = (portAccess a s).1.ieErr := rfl
@[simp] theorem performAccess_busy (a : BusAccess) (s : State) :
    (performAccess a s).busy = (portAccess a s).1.busy := rfl
@[simp] theorem performAccess_done (a : BusAccess) (s : State) :
    (performAccess a s).done = (portAccess a s).1.done := rfl
@[simp] theorem performAccess_errf (a : BusAccess) (s : State) :
    (performAccess a s).errf = (portAccess a s).1.errf := rfl
@[simp] theorem performAccess_ovr (a : BusAccess) (s : State) :
    (performAccess a s).ovr = (portAccess a s).1.ovr := rfl

/-- R78: an access changes no result. -/
theorem performAccess_sameResults (a : BusAccess) (s : State) : SameResults (performAccess a s) s := by
  show SameResults (portAccess a s).1 s
  rcases portAccess_cases a s with h | ⟨v, -, -, -, h⟩ <;> rw [h]
  · exact .refl s
  · exact (regWrite_frame _ v s).1

theorem performAccess_agenda (a : BusAccess) (s : State) : (performAccess a s).agenda = s.agenda := by
  show (portAccess a s).1.agenda = s.agenda
  rcases portAccess_cases a s with h | ⟨v, -, -, -, h⟩ <;> rw [h]
  exact (regWrite_frame _ v s).2.1

/-- R32: the registers at their offsets. -/
theorem regAt_eq_status {off : Nat} : regAt off = .status ↔ off = 0x00C := by
  unfold regAt
  repeat' split
  all_goals simp
  all_goals omega

theorem regAt_eq_cmd {off : Nat} : regAt off = .cmd ↔ off = 0x010 := by
  unfold regAt
  repeat' split
  all_goals simp
  all_goals omega

/-- R32: the ranges of the buffers' registers. -/
theorem regAt_key_range {off : Nat} (h : 0x040 ≤ off ∧ off < 0x078) : ∃ n, regAt off = .key n := by
  refine ⟨⟨(off - 0x040) / 4, by omega⟩, ?_⟩
  unfold regAt
  rw [if_neg (by omega), if_neg (by omega), if_neg (by omega), if_neg (by omega), if_neg (by omega),
    if_neg (by omega), if_neg (by omega), dif_pos h]

theorem regAt_iv_range {off : Nat} (h : 0x080 ≤ off ∧ off < 0x090) : ∃ n, regAt off = .iv n := by
  refine ⟨⟨(off - 0x080) / 4, by omega⟩, ?_⟩
  unfold regAt
  rw [if_neg (by omega), if_neg (by omega), if_neg (by omega), if_neg (by omega), if_neg (by omega),
    if_neg (by omega), if_neg (by omega), dif_neg (by omega), dif_pos h]

theorem regAt_din_range {off : Nat} (h : 0x090 ≤ off ∧ off < 0x0A0) : ∃ n, regAt off = .din n := by
  refine ⟨⟨(off - 0x090) / 4, by omega⟩, ?_⟩
  unfold regAt
  rw [if_neg (by omega), if_neg (by omega), if_neg (by omega), if_neg (by omega), if_neg (by omega),
    if_neg (by omega), if_neg (by omega), dif_neg (by omega), dif_neg (by omega), dif_pos h]

theorem regAt_dout_range {off : Nat} (h : 0x0A0 ≤ off ∧ off < 0x0B0) : ∃ n, regAt off = .dout n := by
  refine ⟨⟨(off - 0x0A0) / 4, by omega⟩, ?_⟩
  unfold regAt
  rw [if_neg (by omega), if_neg (by omega), if_neg (by omega), if_neg (by omega), if_neg (by omega),
    if_neg (by omega), if_neg (by omega), dif_neg (by omega), dif_neg (by omega), dif_neg (by omega), dif_pos h]

/-- R33: the reserved offsets. -/
theorem regAt_reserved_range {off : Nat} (h4 : off % 4 = 0)
    (h : (0x01C ≤ off ∧ off < 0x040) ∨ (0x078 ≤ off ∧ off < 0x080) ∨ 0x0B0 ≤ off) : regAt off = .reserved := by
  unfold regAt
  rw [if_neg (by omega), if_neg (by omega), if_neg (by omega), if_neg (by omega), if_neg (by omega),
    if_neg (by omega), if_neg (by omega), dif_neg (by omega), dif_neg (by omega), dif_neg (by omega),
    dif_neg (by omega)]

@[simp] theorem regAt_key (n : Fin 14) : regAt (0x040 + 4 * n.val) = .key n := by revert n; decide

@[simp] theorem regAt_iv (n : Fin 4) : regAt (0x080 + 4 * n.val) = .iv n := by revert n; decide

@[simp] theorem regAt_din (n : Fin 4) : regAt (0x090 + 4 * n.val) = .din n := by revert n; decide

@[simp] theorem regAt_dout (n : Fin 4) : regAt (0x0A0 + 4 * n.val) = .dout n := by revert n; decide

end Sys2Proof.Machine
end

