-- ==== Sys2Proof/Laws/HostSequences.lean ====
section
/-! SUPPORT. What the host's pseudo-instructions leave in the engine: the buffers they load, the output they read,
and the command they run. -/

namespace Sys2Proof.Machine

/-- A sequence goes on after a part that succeeds. -/
@[simp] theorem sequence_bind_ok {α β : Type} (x : α) (f : α → Except HostFailure β) :
    (Except.ok x).bind f = f x := rfl

@[simp] theorem sequence_map_ok {α β : Type} (x : α) (f : α → β) :
    (Except.ok x : Except HostFailure α).map f = .ok (f x) := rfl

/-- A sequence stops at the part that fails, with its failure. -/
@[simp] theorem sequence_bind_error {α β : Type} (e : HostFailure) (f : α → Except HostFailure β) :
    (Except.error e).bind f = .error e := rfl

@[simp] theorem sequence_map_error {α β : Type} (e : HostFailure) (f : α → β) :
    (Except.error e).map f = .error e := rfl

/-- R115: "missing bytes 0". -/
theorem byteOf_hostWord (b : List Byte) (k j : Nat) (hj : j < 4) : byteOf (hostWord b k) j = b.getD (4 * k + j) 0 := by
  unfold hostWord
  rcases j with _ | _ | _ | _ | j
  · simp
  · simp
  · simp
  · simp
  · omega

/-- Writing the words 0 to n - 1 of a byte list into a buffer. -/
theorem foldl_writeLane_getElem {m : Nat} (l : List Byte) (b : Vector Byte m) (n i : Nat) (hi : i < m) :
    ((List.range n).foldl (fun t k => writeLane t k (hostWord l k)) b)[i] =
      if i < 4 * n then l.getD i 0 else b[i] := by
  induction n with
  | zero => simp
  | succ n ih =>
    simp only [List.range_succ, List.foldl_append, List.foldl_cons, List.foldl_nil, writeLane_getElem, ih]
    by_cases h : i / 4 = n
    · rw [if_pos h, if_pos (by omega), byteOf_hostWord _ _ _ (by omega), show 4 * n + i % 4 = i by omega]
    · rw [if_neg h]
      by_cases h' : i < 4 * n
      · rw [if_pos h', if_pos (by omega)]
      · rw [if_neg h', if_neg (by omega)]

/-- Loading words into a buffer: where each word's write is a lane write of the buffer that `put` places in a state,
the load writes the lanes 0 to n - 1. -/
theorem loadWords_buffer {m : Nat} {off n : Nat} {put : Vector Byte m → State} (l : List Byte) (b : Vector Byte m)
    (h : ∀ k < n, ∀ v c, (windowAccess (off + 4 * k) 4 (.write v) (put c)).1 = put (writeLane c k v)) :
    loadWords off n l (put b) = put ((List.range n).foldl (fun t k => writeLane t k (hostWord l k)) b) := by
  unfold loadWords
  induction n with
  | zero => rfl
  | succ n ih =>
    rw [List.range_succ, List.foldl_append, List.foldl_append, ih fun k hk => h k (by omega)]
    exact h n (by omega) _ _

/-- The words of a byte list hold its bytes and no word more. -/
theorem wordsOf_bounds (b : List Byte) : b.length ≤ 4 * wordsOf b ∧ 4 * wordsOf b ≤ b.length + 3 := by
  unfold wordsOf
  omega

/-- R115, R327: LDKEY on an idle engine writes KEYBUF and nothing else; its first bytes are the key's. -/
theorem ldKey_idle (b : List Byte) (s : State) (hs : s.busy = false) (hb : b.length ≤ 56) :
    ∃ k : Vector Byte 56, ldKey b s = { s with keybuf := k } ∧ ∀ i (h : i < b.length), k[i]'(by omega) = b[i] := by
  have hw := wordsOf_bounds b
  refine ⟨_, loadWords_buffer (put := fun c => { s with keybuf := c }) b s.keybuf ?_, ?_⟩
  · intro k hk v c
    rw [windowAccess_write (by omega), regAt_key ⟨k, by omega⟩]
    simp [regWrite, unlessBusy, hs]
  · intro i h
    rw [foldl_writeLane_getElem _ _ _ _ (by omega), if_pos (by omega)]
    simp [h]

/-- R115, R49: LDIV on an idle engine writes all of IVBUF, zeros where a byte is missing, and nothing else. -/
theorem ldIv_idle (b : List Byte) (s : State) (hs : s.busy = false) :
    ldIv b s = { s with ivbuf := Vector.ofFn fun i => b.getD i.val 0 } := by
  have e : (List.range 4).foldl (fun t k => writeLane t k (hostWord b k)) s.ivbuf =
      Vector.ofFn fun i : Fin 16 => b.getD i.val 0 := by
    apply Vector.ext
    intro i hi
    rw [foldl_writeLane_getElem _ _ _ _ hi, if_pos (by omega)]
    simp
  refine (loadWords_buffer (put := fun c => { s with ivbuf := c }) b s.ivbuf ?_).trans (by rw [e])
  intro k hk v c
  rw [windowAccess_write (by omega), regAt_iv ⟨k, hk⟩]
  simp [regWrite, unlessBusy, hs]

/-- LDBLK on an idle engine writes DINBUF and nothing else. -/
theorem ldBlk_idle (b : List Byte) (s : State) (hs : s.busy = false) (hb : b.length ≤ 16) :
    ∃ d : Vector Byte 16, ldBlk b s = { s with dinbuf := d } ∧ ∀ i (h : i < b.length), d[i]'(by omega) = b[i] := by
  have hw := wordsOf_bounds b
  refine ⟨_, loadWords_buffer (put := fun c => { s with dinbuf := c }) b s.dinbuf ?_, ?_⟩
  · intro k hk v c
    rw [windowAccess_write (by omega), regAt_din ⟨k, by omega⟩]
    simp [regWrite, unlessBusy, hs]
  · intro i h
    rw [foldl_writeLane_getElem _ _ _ _ (by omega), if_pos (by omega)]
    simp [h]

/-- R236: STBLK reads the bytes of DOUTBUF in order. -/
theorem stBlk_eq (s : State) : stBlk s = s.doutbuf.toList := by
  have h0 : regAt 0x0A0 = .dout 0 := by decide
  have h1 : regAt 0x0A4 = .dout 1 := by decide
  have h2 : regAt 0x0A8 = .dout 2 := by decide
  have h3 : regAt 0x0AC = .dout 3 := by decide
  have : stBlk s = (leBytes (readLane s.doutbuf 0)).toList ++ ((leBytes (readLane s.doutbuf 1)).toList ++
      ((leBytes (readLane s.doutbuf 2)).toList ++ ((leBytes (readLane s.doutbuf 3)).toList ++ []))) := by
    simp only [stBlk, List.range_succ, List.range_zero, List.nil_append, List.flatMap_append, List.flatMap_cons,
      List.flatMap_nil, List.append_assoc, List.append_nil, Nat.mul_zero, Nat.add_zero, Nat.mul_one, Nat.reduceMul,
      Nat.reduceAdd, h0, h1, h2, h3, regRead]
    rfl
  rw [this]
  apply List.ext_getElem
  · simp
  · intro i h _
    simp only [readLane_eq s.doutbuf 0 (by omega), readLane_eq s.doutbuf 1 (by omega),
      readLane_eq s.doutbuf 2 (by omega), readLane_eq s.doutbuf 3 (by omega), leBytes, byteOf_le32_0, byteOf_le32_1,
      byteOf_le32_2, byteOf_le32_3]
    have hi : i < 16 := by simpa [leBytes] using h
    rcases i with _ | _ | _ | _ | _ | _ | _ | _ | _ | _ | _ | _ | _ | _ | _ | _ | i
    all_goals first
      | (simp; done)
      | omega

/-- R115, R223, R224: RUN of a word, from any engine that is idle: the engine step of the word. -/
theorem runWord_idle {s : State} (hs : s.busy = false) (w : Word) :
    runWord w s = runCommand w (latchCommand w s) := by
  have h : issueWord w s = latchCommand w s := by
    rw [issueWord, windowAccess_write (by decide), regAt_eq_cmd.mpr rfl]
    exact unlessBusy_idle hs _
  rw [runWord, wait, h, engineStep_busy (by simp), latchCommand_lcmd]

/-- R109, R112: RUN of a word that is no command stops the host with the error the decoder names. -/
theorem hostRunWord_rejected {s : State} (hs : s.busy = false) {w : Word} {e : DecodeError} (hd : decode w = .error e) :
    hostRunWord w s = .error (.commandError (errorCompletion (decodeFault e) (latchCommand w s))) := by
  rw [hostRunWord, runWord_idle hs, runCommand_error hd]
  cases e <;> simp [checkRun, decodeFault, errCode]

/-- R115, R223, R224: RUN of a command on an idle engine: the command's own answer, a stop where it reports an
error. -/
theorem hostRun_idle {i : Instr} {s : State} (hs : s.busy = false) (hd : decode (encode i) = .ok i) :
    hostRun i s = checkRun (exec i (latchCommand (encode i) s)) := by
  rw [hostRun, hostRunWord, runWord_idle hs, runCommand_ok hd]

/-- RUN of a command that completes. -/
theorem hostRun_complete {i : Instr} {s : State} (hs : s.busy = false) (hd : decode (encode i) = .ok i) {n : Nat}
    {u : State} (he : exec i (latchCommand (encode i) s) = .next (complete n u)) :
    hostRun i s = .ok (complete n u) := by
  rw [hostRun_idle hs hd, he]
  simp [checkRun]

/-- RUN of a command that reports an error: the host stops, and what it holds is the error completion's state. -/
theorem hostRun_raise {i : Instr} {s : State} (hs : s.busy = false) (hd : decode (encode i) = .ok i) {e : CmdError}
    {u : State} (he : exec i (latchCommand (encode i) s) = raise e u) :
    hostRun i s = .error (.commandError (errorCompletion e u)) := by
  rw [hostRun_idle hs hd, he]
  cases e <;> simp [checkRun, raise, errCode]

/-- What RUN can answer, of any word and from any engine state: a completion without an error, or a stop with a
state whose ERR says why; the engine always answers. -/
theorem hostRunWord_cases (w : Word) (s : State) :
    (∃ t, hostRunWord w s = .ok t ∧ runWord w s = .next t ∧ t.err = 0) ∨
    (∃ t, hostRunWord w s = .error (.commandError t) ∧ runWord w s = .next t ∧ t.err ≠ 0) := by
  obtain ⟨t, ht⟩ := engineStep_next (issueWord w s)
  have ht : runWord w s = .next t := ht
  by_cases h : t.err = 0
  · exact .inl ⟨t, by simp only [hostRunWord, ht, checkRun, if_pos h], ht, h⟩
  · exact .inr ⟨t, by simp only [hostRunWord, ht, checkRun, if_neg h], ht, h⟩

/-- R268, R325: a ciphertext of length 0 or no multiple of bs fails with InvalidBlockSize before the engine is
touched. -/
theorem decryptMessage_badLength {alg : Nat} {c : List Byte}
    (h : c.length = 0 ∨ c.length % blockSize (algOf alg) ≠ 0) (mode : Mode) (kb iv : List Byte) (s : State) :
    decryptMessage alg mode kb iv c s = .error .invalidBlockSize := by
  simp only [decryptMessage, if_pos h]

/-! ### A session, as the host sees it through a message -/

/-- An idle engine with an open session: its schedules, algorithm, direction, mode and chaining value. -/
structure OpenSession (bf : BFSchedule) (tf : TFSchedule) (a : Alg) (dir : Dir) (mode : Mode) (c : Block a)
    (s : State) : Prop where
  busy : s.busy = false
  valid : s.sessValid = true
  alg : s.sAlg = a
  dir : s.sDir = dir
  mode : s.sMode = mode
  bf_eq : s.bf = bf
  tf_eq : s.tf = tf
  cv : chainingValue a s = c

/-- The first block of a byte list. -/
def firstBlock (a : Alg) (m : List Byte) : Block a := Vector.ofFn fun i => m.getD i.val 0

theorem firstBlock_toList {a : Alg} {m : List Byte} (h : blockSize a ≤ m.length) :
    (firstBlock a m).toList = m.take (blockSize a) := by
  apply List.ext_getElem
  · simpa using h
  · intro i h1 h2
    have : i < blockSize a := by simpa using h1
    simp [firstBlock, show i < m.length by omega]

theorem firstBlock_append (a : Alg) (y : Block a) (m : List Byte) : firstBlock a (y.toList ++ m) = y := by
  apply Vector.ext
  intro i hi
  simp [firstBlock, List.getD_eq_getElem?_getD, List.getElem?_append]

/-- R324, R325: one turn of the host's loop: LDBLK, RUN BLOCK and STBLK are one block step. -/
theorem runBlock_openSession {bf : BFSchedule} {tf : TFSchedule} {a : Alg} {dir : Dir} {mode : Mode} {c : Block a}
    {s : State} (hs : OpenSession bf tf a dir mode c s) {m : List Byte} (hm : blockSize a ≤ m.length) :
    ∃ t, hostRun .block (ldBlk (m.take (blockSize a)) s) = .ok t ∧
      OpenSession bf tf a dir mode
        (chain (encryptWith bf tf a) (decryptWith bf tf a) mode dir c (firstBlock a m)).2 t ∧
      (stBlk t).take (blockSize a) =
        (chain (encryptWith bf tf a) (decryptWith bf tf a) mode dir c (firstBlock a m)).1.toList := by
  have hle := blockSize_le a
  obtain ⟨d, hd, hd'⟩ := ldBlk_idle (m.take (blockSize a)) s hs.busy (by simp; omega)
  have hin : inputBlock a (latchCommand (encode .block) { s with dinbuf := d }) = firstBlock a m := by
    apply Vector.ext
    intro i hi
    have := hd' i (by simp; omega)
    simp [inputBlock, firstBlock, this, show i < m.length by omega]
  have he : modeBlock a (latchCommand (encode .block) { s with dinbuf := d }) (firstBlock a m) =
      chain (encryptWith bf tf a) (decryptWith bf tf a) mode dir c (firstBlock a m) := by
    have hc : chainingValue a (latchCommand (encode .block) { s with dinbuf := d }) = c := hs.cv
    rw [modeBlock, hc]
    simp only [latchCommand_bf, latchCommand_tf, latchCommand_sMode, latchCommand_sDir, hs.mode, hs.dir, hs.bf_eq,
      hs.tf_eq]
  have hex := exec_block_open (s := latchCommand (encode .block) { s with dinbuf := d }) (a := a) hs.valid hs.alg
  rw [hin, he] at hex
  rw [hd]
  refine ⟨_, hostRun_complete (s := { s with dinbuf := d }) hs.busy (by decide) hex, ?_, ?_⟩
  · constructor
    · simp
    · simpa using hs.valid
    · simpa using hs.alg
    · simpa using hs.dir
    · simpa using hs.mode
    · simpa using hs.bf_eq
    · simpa using hs.tf_eq
    · simp [chainingValue]
  · rw [stBlk_eq]
    apply List.ext_getElem
    · simpa using hle
    · intro i h1 h2
      have : i < blockSize a := by simpa using h2
      simp [this]

end Sys2Proof.Machine
end

