-- ==== Sys2Proof/Laws/PerInstr.lean ====
section
/-! SUPPORT. The family OpOfEncode: R101, the OP field of every command's word, whatever the operands. -/

namespace Sys2Proof.Laws

/-- R101: the OP value of a command. -/
def opValue : Instr → Nat
  | .nop => 0
  | .keysched _ _ _ _ => 1
  | .block => 2
  | .final _ => 3
  | .zeroize => 4

/-- R101, R110: the word of a command carries its OP value, and no operand reaches the OP field. -/
def OpOfEncode.Statement (i : Instr) : Prop := opField (encode i) = opValue i

theorem OpOfEncode.nop : OpOfEncode.Statement .nop := by
  unfold OpOfEncode.Statement
  decide

theorem OpOfEncode.keysched (alg : Nat) (dir : Dir) (mode : Mode) (keylen : Nat) :
    OpOfEncode.Statement (.keysched alg dir mode keylen) := by
  have h : (encode (.keysched alg dir mode keylen)).extractLsb' 0 4 = 1#4 := by
    apply BitVec.eq_of_getLsbD_eq
    intro i hi
    have h4 : i < 4 := hi
    have h8 : i < 8 := by omega
    have h6 : i < 6 := by omega
    have h7 : i < 7 := by omega
    have h32 : i < 32 := by omega
    simp only [encode, BitVec.getLsbD_extractLsb', BitVec.getLsbD_or, BitVec.getLsbD_shiftLeft, Nat.zero_add, h4, h6,
      h7, h8, h32, decide_true, Bool.not_true, Bool.false_and, Bool.and_false, Bool.or_false, Bool.true_and]
    interval_cases i <;> rfl
  simp only [OpOfEncode.Statement, opValue, opField, h]
  rfl

theorem OpOfEncode.block : OpOfEncode.Statement .block := by
  unfold OpOfEncode.Statement
  decide

theorem OpOfEncode.final (nbytes : Nat) : OpOfEncode.Statement (.final nbytes) := by
  have h : (encode (.final nbytes)).extractLsb' 0 4 = 3#4 := by
    apply BitVec.eq_of_getLsbD_eq
    intro i hi
    have h4 : i < 4 := hi
    have h16 : i < 16 := by omega
    have h32 : i < 32 := by omega
    simp only [encode, BitVec.getLsbD_extractLsb', BitVec.getLsbD_or, BitVec.getLsbD_shiftLeft, Nat.zero_add, h4, h16,
      h32, decide_true, Bool.not_true, Bool.false_and, Bool.and_false, Bool.or_false, Bool.true_and]
    interval_cases i <;> rfl
  simp only [OpOfEncode.Statement, opValue, opField, h]
  rfl

theorem OpOfEncode.zeroize : OpOfEncode.Statement .zeroize := by
  unfold OpOfEncode.Statement
  decide

end Sys2Proof.Laws
end

