-- ==== Sys2Proof/Tests/Slice0.lean ====
section
/-! SUPPORT. Small checks against the words, tables and vectors of spec/ (30_encoding.md R110, 95_test_vectors.md), and
for every statement with hypotheses a state and operands that meet them. Expected values are the spec's. -/

namespace Sys2Proof.Tests

open Sys2Proof Sys2Proof.Machine

/-! ## Well-formedness: each check refuses an ill-formed term -/

theorem test_wf_alg : (Instr.keysched 4 .enc .ecb 16).wf = false := by decide
theorem test_wf_keylen : (Instr.keysched 0 .enc .ecb 64).wf = false := by decide
theorem test_wf_nbytes : (Instr.final 16).wf = false := by decide
theorem test_wf_accepts :
    (Instr.keysched 3 .dec .cbc 63).wf = true ∧ (Instr.final 15).wf = true ∧ Instr.nop.wf = true ∧
      Instr.block.wf = true ∧ Instr.zeroize.wf = true := by decide

/-! ## Decoding: words written out bit by bit from R110's encodings -/

theorem test_decode_nop : decode 0b00000000000000000000000000000000 = .ok .nop := by decide
/-- KEYSCHED TF, DEC, CBC, 24: l = 011000, m = 1, d = 1, aa = 01. -/
theorem test_decode_keysched_tf : decode 0b00000000000000000001100011010001 = .ok (.keysched 1 .dec .cbc 24) := by decide
/-- KEYSCHED #2, ENC, CBC, 33: l = 100001, m = 1, d = 0, aa = 10. -/
theorem test_decode_keysched_unknown :
    decode 0b00000000000000000010000110100001 = .ok (.keysched 2 .enc .cbc 33) := by decide
theorem test_decode_block : decode 0b00000000000000000000000000000010 = .ok .block := by decide
/-- FINAL 9: n = 1001. -/
theorem test_decode_final : decode 0b00000000000010010000000000000011 = .ok (.final 9) := by decide
theorem test_decode_zeroize : decode 0b00000000000000000000000000000100 = .ok .zeroize := by decide
/-- R108, one bit outside each command's fields. -/
theorem test_decode_mbz :
    decode 0x00000010 = .error .badField ∧ decode 0x00004001 = .error .badField ∧
      decode 0x00080002 = .error .badField ∧ decode 0x00000013 = .error .badField ∧
      decode 0x80000004 = .error .badField ∧ decode 0x00000005 = .error .badOpcode := by decide
theorem test_decodeTableWord : decodeTableWord 32 0x20D1 = some (.keysched 1 .dec .cbc 32) := by decide
theorem test_encode_examples :
    encode (.keysched 0 .enc .ecb 8) = 0x00000801 ∧ encode (.keysched 1 .dec .cbc 32) = 0x000020D1 ∧
      encode (.final 5) = 0x00050003 := by decide

/-! ## Commands, one step each (95_test_vectors.md 2.1, 2.4, 2.7 to 2.9) -/

/-- The state after one step of s. -/
def after (s : State) : State :=
  match step s with
  | .next t => t
  | .fault _ => s
  | .refused _ => s

/-- STATUS, SESSION and RESULT after one step of s. -/
def readsAfter (s : State) : Word × Word × Word :=
  (regRead .status (after s), regRead .session (after s), regRead .result (after s))

/-- 2.1: the word as the first command after reset. -/
def fromReset (w : Nat) : Word × Word × Word := readsAfter (State.reset.withFetchWord 32 w)

/-- An open session, with DIN and CV holding some bytes. -/
def session (a : Alg) (dir : Dir) (mode : Mode) : State :=
  { State.reset with
    sessValid := true, sAlg := a, sDir := dir, sMode := mode
    dinbuf := Vector.ofFn fun i => BitVec.ofNat 8 (i.val + 1), cv := Vector.ofFn fun i => BitVec.ofNat 8 (2 * i.val) }

theorem test_nop : fromReset 0x00000000 = (0x00000002, 0, 0) := by decide
theorem test_nop_keeps_session :
    (readsAfter ((session .blowfish .enc .ecb).withFetchWord 32 0)).1 = 0x00000012 := by decide
theorem test_keysched_ok : fromReset 0x00000401 = (0x00000012, 0x00000800, 0) := by decide
theorem test_keysched_policy :
    fromReset 0x00000301 = (0x00000206, 0, 0) ∧ fromReset 0x00003901 = (0x00000106, 0, 0) ∧
      fromReset 0x00001111 = (0x00000106, 0, 0) ∧ fromReset 0x00000021 = (0x00000306, 0, 0) := by decide
theorem test_block_needs_session : fromReset 0x00000002 = (0x00030706, 0, 0) := by decide
theorem test_final_count : readsAfter ((session .blowfish .enc .ecb).withFetchWord 32 0x00080003) = (0x00000406, 0, 0) := by
  decide
theorem test_final_decrypt_count :
    readsAfter ((session .blowfish .dec .ecb).withFetchWord 32 0x00030003) = (0x00020706, 0, 0) := by decide
theorem test_zeroize :
    after ((session .twofish .dec .cbc).withFetchWord 32 4) = { State.reset with lcmd := 4, done := true } := rfl
theorem test_rejected_words :
    fromReset 0xFFFFFFFF = (0x00010706, 0, 0) ∧ fromReset 0x00000010 = (0x00020706, 0, 0) := by decide

/-! ## The bus window (2.9) -/

theorem test_bus_refused :
    windowAccess 0x00C 1 .read State.reset = (State.reset, .busError) ∧
      windowAccess 0x00E 4 .read State.reset = (State.reset, .busError) ∧
      windowAccess 0x010 1 (.write 0x02) State.reset = (State.reset, .busError) := ⟨rfl, rfl, rfl⟩
/-- R115: "password" as KEY0 and KEY1. -/
theorem test_key_lanes :
    ((windowAccess 0x044 4 (.write 0x64726F77) (windowAccess 0x040 4 (.write 0x73736170) State.reset).1).1.keybuf.toList.take 8)
      = [0x70, 0x61, 0x73, 0x73, 0x77, 0x6F, 0x72, 0x64] := by decide
/-- 2.9, group 7: what a busy engine takes and drops. -/
theorem test_busy_writes :
    let s := (windowAccess 0x010 4 (.write 0) State.reset).1
    let t := (windowAccess 0x008 4 (.write 1) (windowAccess 0x010 4 (.write 4) s).1).1
    regRead .status t = 0x00000009 ∧ regRead .ctrl t = 1 ∧ t.lcmd = 0 := by decide

/-- R325: 9 bytes are no Blowfish ciphertext, the host's own failure; R324: a 3-byte key stops the host, with
KeyTooShort (2) in STATUS.ERR. -/
theorem test_sequence_failures :
    decryptMessage 0 .ecb [1, 2, 3, 4] [] (List.replicate 9 0) State.reset = .error .invalidBlockSize ∧
    (match encryptMessage 0 .ecb [1, 2, 3] [] [5] State.reset with
      | .error (.commandError t) => t.err == 2 && !t.busy
      | _ => false) = true :=
  ⟨decryptMessage_badLength (.inr (by decide)) _ _ _ _, by decide⟩

/-- P5: `LDIV` with 8 bytes writes IV2 and IV3 as 0. -/
theorem test_ldIv_short :
    let s := ldIv [0xFE, 0xDC, 0xBA, 0x98, 0x76, 0x54, 0x32, 0x10] { State.reset with ivbuf := Vector.replicate 16 0xFF }
    [0, 1, 2, 3].map (fun n => regRead (.iv n) s) = [0x98BADCFE, 0x10325476, 0, 0] := by decide
/-- 2.9, groups 3 and 5: `RUN .cmd 0x5` with IE_ERR set, STATUS and IRQ; `RUN .cmd 0x104`, STATUS. -/
theorem test_run_raw_words :
    (match runWord 0x5 { State.reset with ieErr := true } with
      | .next t => regRead .status t == 0x00010706 && irq t
      | _ => false) = true ∧
    (match runWord 0x104 State.reset with
      | .next t => regRead .status t == 0x00020706
      | _ => false) = true := by decide

/-! ## The ciphers (2.2, 2.3) -/

theorem test_pi_words :
    piWord 0 = 0x243F6A88 ∧ piWord 17 = 0x8979FB1B ∧ piWord 18 = 0xD1310BA6 ∧ piWord 273 = 0x6E85076A ∧
      piWord 274 = 0x4B7A70E9 ∧ piWord 1041 = 0x3AC372E6 := by decide +kernel
theorem test_bf_key_word : piWord 0 ^^^ bfKeyWord [0x70, 0x61, 0x73, 0x73, 0x77, 0x6F, 0x72, 0x64] 0 = 0x545E19FB := by
  decide
theorem test_gfMul : gfMul 0x02 0x80 0x169 = 0x69 ∧ gfMul 0x02 0x80 0x14D = 0x4D ∧ gfMul 0xEF 0xFF 0x169 = 0xE5 := by
  decide
theorem test_q :
    [q0 0, q0 1, q0 2, q0 3] = [0xA9, 0x67, 0xB3, 0xE8] ∧ [q1 0, q1 1, q1 2, q1 3] = [0x75, 0xF3, 0xC6, 0xF4] := by
  decide
theorem test_mds : mdsMul 1 0 0 0 = 0xEFEF5B01 ∧ mdsMul 0 1 0 0 = 0x015BEFEF ∧ mdsMul 0 0 0 1 = 0x5BEF015B := by
  decide
theorem test_rs :
    rsMul [1, 0, 0, 0, 0, 0, 0, 0] = 0xA402A401 ∧ rsMul [0, 0, 0, 0, 0, 0, 0, 1] = 0x0319E59E := by decide
theorem test_h : hFun 0 [0, 0] 2 = 0x6F01A38B := by decide
/-- The key 01 23 45 67 89 AB CD EF FE DC BA 98 76 54 32 10: SK[0], SK[1] and K[0], K[1]. -/
theorem test_tf_schedule :
    let kb : List Byte := [0x01, 0x23, 0x45, 0x67, 0x89, 0xAB, 0xCD, 0xEF, 0xFE, 0xDC, 0xBA, 0x98, 0x76, 0x54, 0x32, 0x10]
    tfSboxKeyWord kb 0 = 0xB89FF6F2 ∧ tfSboxKeyWord kb 1 = 0xB255BC4B ∧ tfSubkey kb 2 0 = 0x83506BE5 ∧
      tfSubkey kb 2 1 = 0xEDDDACCB := by decide
/-- 2.3: the subkeys of the 16-byte zero key that the table gives: K[0], K[1], K[7], K[8] and K[39]. -/
theorem test_tf_subkeys :
    let kb : List Byte := List.replicate 16 0
    tfSubkey kb 2 0 = 0x52C54DDE ∧ tfSubkey kb 2 1 = 0x11F0626D ∧ tfSubkey kb 2 7 = 0xCFE14BE4 ∧
      tfSubkey kb 2 8 = 0xF98FFEF9 ∧ tfSubkey kb 2 39 = 0x696EA672 := by decide
/-- The schedule of the 16-byte zero key, found by evaluation (2.3 gives K[0] to K[8] and K[39] of it). -/
def zeroKeySchedule : TFSchedule where
  k := #v[0x52C54DDE, 0x11F0626D, 0x7CAC9D4A, 0x4D1B4AAA, 0xB7B83A10, 0x1E7D0BEB, 0xEE9C341F, 0xCFE14BE4,
        0xF98FFEF9, 0x9C5B3C17, 0x15A48310, 0x342A4D81, 0x424D89FE, 0xC14724A7, 0x311B834C, 0xFDE87320,
        0x3302778F, 0x26CD67B4, 0x7A6C6362, 0xC2BAF60E, 0x3411B994, 0xD972C87F, 0x84ADB1EA, 0xA7DEE434,
        0x54D2960F, 0xA2F7CAA8, 0xA6B8FF8C, 0x8014C425, 0x6A748D1C, 0xEDBAF720, 0x928EF78C, 0x0338EE13,
        0x9949D6BE, 0xC8314176, 0x07C07D68, 0xECAE7EA7, 0x1FE71844, 0x85C05C89, 0xF298311E, 0x696EA672]
  sk := Vector.replicate 4 0
  tk := 2
/-- 2.3: the Twofish vector of the zero block under the 16-byte zero key. -/
theorem test_tf_encrypt :
    tfEncryptBlock zeroKeySchedule (Vector.replicate 16 0) =
      #v[0x9F, 0x58, 0x9F, 0x5C, 0xF6, 0x12, 0x2C, 0x32, 0xB6, 0xBF, 0xEC, 0x2F, 0x2A, 0xE8, 0xC3, 0x5A] := by
  decide +kernel

/-! ## Witnesses: what meets the hypotheses of the statements -/

/-- An engine with the word accepted as a command and its completion next. -/
def accepted (w : Word) : State := { latchCommand w State.reset with agenda := [.completion] }

/-- A state with one access of the host's next, at an offset of the window. -/
def accessing (off size : Nat) (k : AccessKind) : State :=
  { State.reset with agenda := [.access { master := .host, addr := Config.base + off, size := size, kind := k }] }

theorem test_witness_DecodeOfEncode :
    (Instr.keysched 3 .dec .cbc 63).wf = true ∧ (Instr.keysched 0 .enc .ecb 0).wf = true ∧
      (Instr.final 0).wf = true ∧ (Instr.final 15).wf = true := by decide
theorem test_witness_EncodeOfDecode : decode 0x00003F21 = .ok (.keysched 2 .enc .ecb 63) := by decide
theorem test_witness_DecodeRejectsByName :
    5 ≤ (0x00000005 : Word).toNat % 16 ∧ 5 ≤ (0xFFFFFFFF : Word).toNat % 16 ∧
      ((0x00100003 : Word).toNat % 16 < 5 ∧ (0x00100003 : Word) &&& 0xFFF0FFF0 ≠ 0) ∧
      ((0x00003FF1 : Word).toNat % 16 < 5 ∧ (0x00003FF1 : Word) &&& 0xFFFFC000 = 0) := by decide
theorem test_witness_StepRunsDecodedCommand :
    (accepted 0).busy = true ∧ decode (accepted 0).lcmd = .ok .nop ∧ (accepted 0).agenda = [.completion] ∧
      (latchCommand 0 State.reset).busy = true ∧ (latchCommand 0 State.reset).agenda = [] := by decide
theorem test_witness_StepReportsRejectedWord :
    (accepted 5).busy = true ∧ decode (accepted 5).lcmd = .error .badOpcode ∧
      decode (accepted 0x12).lcmd = .error .badField ∧ (accepted 5).agenda = [.completion] ∧
      (latchCommand 5 State.reset).busy = true ∧ (latchCommand 5 State.reset).agenda = [] := by decide
theorem test_witness_reset_pulse :
    ∃ s : State, s.agenda = [.resetPulse] ∧ s.busy = true := ⟨{ accepted 1 with agenda := [.resetPulse] }, rfl, rfl⟩
theorem test_witness_NopCompletes : (0x00000010 : Word).toNat % 16 = 0 ∧ (0x00000010 : Word) ≠ 0 := by decide
theorem test_witness_KeyschedOpensSession :
    KeyLegal 0 4 ∧ KeyLegal 0 56 ∧ KeyLegal 1 16 ∧ KeyLegal 1 24 ∧ KeyLegal 1 32 := by
  unfold KeyLegal
  decide
/-- Each clause at the ends of its range: ALG 2 and 3; Blowfish 3, 57 and 63; Twofish 15, 17, 31, 33 and 63. -/
theorem test_witness_KeyschedRejectsBadKeys :
    keyschedError 2 16 = some .unknownAlgorithm ∧ keyschedError 3 0 = some .unknownAlgorithm ∧
      keyschedError 0 0 = some .keyTooShort ∧ keyschedError 0 3 = some .keyTooShort ∧
      keyschedError 0 57 = some .invalidKeyLength ∧ keyschedError 0 63 = some .invalidKeyLength ∧
      keyschedError 1 15 = some .keyTooShort ∧ keyschedError 1 17 = some .invalidKeyLength ∧
      keyschedError 1 31 = some .invalidKeyLength ∧ keyschedError 1 33 = some .invalidKeyLength ∧
      keyschedError 1 63 = some .invalidKeyLength := by decide
theorem test_witness_BlockInBlowfishSession :
    (session .blowfish .enc .cbc).sessValid = true ∧ (session .blowfish .enc .cbc).sAlg = .blowfish := ⟨rfl, rfl⟩
theorem test_witness_BlockInTwofishSession :
    (session .twofish .dec .cbc).sessValid = true ∧ (session .twofish .dec .cbc).sAlg = .twofish := ⟨rfl, rfl⟩
theorem test_witness_BlockCommandsNeedASession : State.reset.sessValid = false := rfl
theorem test_witness_FinalPadsAndEncrypts :
    (session .blowfish .enc .ecb).sessValid = true ∧ (session .blowfish .enc .ecb).sDir = .enc ∧
      0 < blockSize (session .blowfish .enc .ecb).sAlg ∧ 7 < blockSize (session .blowfish .enc .ecb).sAlg ∧
      15 < blockSize (session .twofish .enc .cbc).sAlg := by decide
/-- A Twofish CBC decrypt session whose chaining value makes y the decrypted block. -/
def decryptingTo (y : Vector Byte 16) : State :=
  { session .twofish .dec .cbc with
    cv := xorBytes y (tfDecryptBlock State.reset.tf (session .twofish .dec .cbc).dinbuf) }
theorem modeBlock_decryptingTo (y : Vector Byte 16) :
    (modeBlock .twofish (decryptingTo y) (inputBlock .twofish (decryptingTo y))).1 = y := by
  have hc : chainingValue .twofish (decryptingTo y) = (decryptingTo y).cv := takeBytes_self _ _
  have hi : inputBlock .twofish (decryptingTo y) = (session .twofish .dec .cbc).dinbuf := takeBytes_self _ _
  rw [modeBlock_cbc_dec rfl rfl, hi, hc]
  show xorBytes (tfDecryptBlock State.reset.tf _) (xorBytes y (tfDecryptBlock State.reset.tf _)) = y
  generalize tfDecryptBlock State.reset.tf _ = d
  apply Vector.ext
  intro i hi
  simp
/-- 2.8: the Twofish blocks with p = 4, which is valid, and p = 17, which is not. -/
theorem test_witness_FinalDecryptsAndChecksPad :
    let good := decryptingTo #v[0x30, 0x31, 0x32, 0x33, 0x34, 0x35, 0x36, 0x37, 0x38, 0x39, 0x3A, 0x3B, 4, 4, 4, 4]
    let bad := decryptingTo (Vector.replicate 16 0x11)
    padValid .twofish (modeBlock .twofish good (inputBlock .twofish good)).1 = true ∧
      padValid .twofish (modeBlock .twofish bad (inputBlock .twofish bad)).1 = false := by
  simp only [modeBlock_decryptingTo]
  decide
theorem test_witness_FinalRejectsBadCounts :
    (blockSize (session .blowfish .enc .ecb).sAlg ≤ 8) ∧ (session .blowfish .enc .ecb).sDir = .enc ∧
      (session .twofish .dec .ecb).sDir = .dec ∧ (1 : Nat) ≠ 0 := by decide
theorem test_witness_OutputIsRewritten : Instr.block ≠ .nop ∧ Instr.zeroize ≠ .nop := by decide
theorem test_witness_EqualCyclicKeysEqualSchedules :
    let k1 : List Byte := [0x61, 0x62, 0x63, 0x64]
    let k2 : List Byte := [0x61, 0x62, 0x63, 0x64, 0x61, 0x62, 0x63, 0x64]
    4 ≤ k1.length ∧ 4 ≤ k2.length ∧ ∀ j < 72, k1[j % k1.length]? = k2[j % k2.length]? := by decide
theorem test_witness_TwofishScheduleFollowsItsRules :
    (List.replicate 16 (0 : Byte)).length = 8 * 2 ∧ (List.replicate 24 (0 : Byte)).length = 8 * 3 ∧
      (List.replicate 32 (0 : Byte)).length = 8 * 4 := by decide
/-- The decrypt session takes the encrypt session's output as its input, in each mode. -/
theorem test_witness_round_trips (mode : Mode) (i : Instr) :
    ∃ s s' t : State, s.sessValid = true ∧ s'.sessValid = true ∧ s.sDir = .enc ∧ s'.sDir = .dec ∧
      s'.sAlg = s.sAlg ∧ s'.sMode = s.sMode ∧ s'.bf = s.bf ∧ s'.tf = s.tf ∧ s'.cv = s.cv ∧ 7 < blockSize s.sAlg ∧
      exec i s = .next t ∧ s'.dinbuf = t.doutbuf := by
  have h : ∃ t, exec i (session .twofish .enc mode) = .next t := by
    rcases exec_completes i (session .twofish .enc mode) with ⟨_, _, h, -⟩ | ⟨_, _, h, -⟩ <;> exact ⟨_, h⟩
  obtain ⟨t, ht⟩ := h
  exact ⟨session .twofish .enc mode, { session .twofish .dec mode with dinbuf := t.doutbuf }, t, rfl, rfl, rfl, rfl,
    rfl, rfl, rfl, rfl, rfl, by cases mode <;> decide, ht, rfl⟩
theorem test_witness_MessageRoundTrip :
    KeyLegal 0 (List.replicate 56 (0 : Byte)).length ∧ KeyLegal 1 (List.replicate 24 (0 : Byte)).length ∧
      (List.replicate 16 (0 : Byte)).length = 16 ∧ State.reset.busy = false ∧
      ([] : List Byte).length = 0 ∧ (List.replicate 7 (0 : Byte)).length % 8 ≠ 0 ∧
      (List.replicate 24 (0 : Byte)).length % 16 ≠ 0 := by
  unfold KeyLegal
  decide
theorem test_witness_EcbRepeatsBlocks :
    ∃ s s' : State, s ≠ s' ∧ s.sessValid = true ∧ s'.sessValid = true ∧ s.sMode = .ecb ∧ s'.sMode = .ecb ∧
      s'.sAlg = s.sAlg ∧ s'.sDir = s.sDir ∧ s'.bf = s.bf ∧ s'.tf = s.tf ∧
      ∀ i : Fin 16, i.val < blockSize s.sAlg → s'.dinbuf[i] = s.dinbuf[i] :=
  ⟨session .blowfish .enc .ecb,
    { session .blowfish .enc .ecb with cv := Vector.replicate 16 0, dinbuf := #v[1, 2, 3, 4, 5, 6, 7, 8, 0, 0, 0, 0, 0, 0, 0, 0] },
    by decide, rfl, rfl, rfl, rfl, rfl, rfl, rfl, rfl, by decide⟩
/-- Buffers that differ only where the command does not look: KEYBUF[4..55], DINBUF[7..15], DINBUF[8..15], CV[8..15]. -/
theorem test_witness_IgnoredBytesDoNotMatter :
    (∃ k : Vector Byte 56, k ≠ State.reset.keybuf ∧ ∀ i : Fin 56, i.val < 4 → k[i] = State.reset.keybuf[i]) ∧
    (∃ d : Vector Byte 16, d ≠ (session .twofish .enc .cbc).dinbuf ∧ 7 < blockSize (session .twofish .enc .cbc).sAlg ∧
      ∀ i : Fin 16, i.val < 7 → d[i] = (session .twofish .enc .cbc).dinbuf[i]) ∧
    (∃ d ch : Vector Byte 16, d ≠ (session .blowfish .enc .cbc).dinbuf ∧ ∀ i : Fin 16, i.val < 8 →
      d[i] = (session .blowfish .enc .cbc).dinbuf[i] ∧ ch[i] = (session .blowfish .enc .cbc).cv[i]) :=
  ⟨⟨Vector.ofFn fun i => if i.val < 4 then 0 else 1, by decide, by decide⟩,
    ⟨Vector.ofFn fun i => if i.val < 7 then BitVec.ofNat 8 (i.val + 1) else 0, by decide, by decide,
      by decide⟩,
    ⟨Vector.ofFn fun i => if i.val < 8 then BitVec.ofNat 8 (i.val + 1) else 0,
      Vector.ofFn fun i => if i.val < 8 then BitVec.ofNat 8 (2 * i.val) else 1, by decide, by decide⟩⟩

theorem test_witness_RefusedAccessChangesNothing :
    ∃ (s : State) (a b : BusAccess), s.agenda = [.access a, .access b] ∧ mayReach a.master = true ∧ Config.base ≤ a.addr ∧
      a.addr < Config.base + 4096 ∧ a.size ≠ 4 ∧ mayReach b.master = true ∧ Config.base ≤ b.addr ∧
      b.addr < Config.base + 4096 ∧ (b.addr - Config.base) % 4 ≠ 0 :=
  ⟨{ State.reset with agenda := [.access ⟨.host, Config.base + 0x00C, 1, .read⟩, .access ⟨.host, Config.base + 0x00E, 4, .read⟩] },
    ⟨.host, Config.base + 0x00C, 1, .read⟩, ⟨.host, Config.base + 0x00E, 4, .read⟩, rfl, rfl, by simp, by simp,
    by decide, rfl, by simp, by simp, by simp⟩
theorem test_witness_AdmittedAccessIsPerformed :
    mayReach .host = true ∧ (accessing 0xFFC 4 .read).agenda = .access { master := .host, addr := Config.base + 0xFFC, size := 4, kind := .read } :: [] ∧
      (accessing 0x010 4 (.write 4)).agenda =
        .access { master := .host, addr := Config.base + 0x010, size := 4, kind := .write 4 } :: [] := ⟨rfl, rfl, rfl⟩
theorem test_witness_ForeignAccessLeavesTheEngine :
    ∃ (s : State) (a : BusAccess), s.agenda = [.access a] ∧ Config.base + 4096 ≤ a.addr :=
  ⟨{ State.reset with agenda := [.access ⟨.host, Config.base + 4096, 4, .read⟩] }, ⟨.host, Config.base + 4096, 4, .read⟩,
    rfl, Nat.le_refl _⟩
/-- The ends of the ranges of R33, R34 and R327. -/
theorem test_witness_offsets :
    [0x01C, 0x03C, 0x078, 0x07C, 0x0B0, 0xFFC].map regAt = List.replicate 6 .reserved ∧
      [0x000, 0x004, 0x014, 0x018, 0x0A0, 0x0AC].map regAt = [.id, .version, .session, .result, .dout 0, .dout 3] ∧
      [0x010, 0x040, 0x074, 0x080, 0x08C, 0x090, 0x09C].map regAt =
        [.cmd, .key 0, .key 13, .iv 0, .iv 3, .din 0, .din 3] ∧ (accepted 0).busy = true := by decide
theorem test_witness_SessionReadsItsFields :
    (session .twofish .dec .cbc).sessValid = true ∧ State.reset.sessValid = false ∧
      regRead .session (session .twofish .enc .ecb) = 0x00001001 ∧
      regRead .session (session .blowfish .enc .cbc) = 0x00000808 := by decide
theorem test_witness_buffer_writes : State.reset.busy = false := rfl
/-- Both conditions assert IRQ; the W1C value 6 and the CTRL value 0 meet the two ways to clear it. -/
theorem test_witness_IrqFollowsFlags :
    let s : State := { State.reset with done := true, ieDone := true, errf := true, ieErr := true }
    irq s = true ∧ s.busy = false ∧
      ((0x00000006 : Word).getLsbD 1 = true ∧ (0x00000006 : Word).getLsbD 2 = true) ∧
      ((0xFFFFFFFC : Word).getLsbD 0 = false ∧ (0xFFFFFFFC : Word).getLsbD 1 = false) := by decide
theorem test_witness_InvariantKept : ∃ s t : State, Inv s ∧ step s = .next t ∧ t ≠ s := by
  refine ⟨accepted 0, complete 0 { accepted 0 with agenda := [] }, ?_, ?_, by decide⟩
  · constructor <;>
      simp [ClosedIsClear, KeyUnitsLegal, EcbHasNoChaining, CodesProduced, ErrorLeavesNothing, StatusConsistent,
        BlowfishOutputShort, accepted, State.reset, TFSchedule.zero, zeroBytes]
  · rw [step_completion_busy (s := accepted 0) (rest := []) rfl rfl]
    rfl
theorem test_witness_AccessesLeaveResults : ∃ a rest, (accessing 0x010 4 (.write 0)).agenda = .access a :: rest :=
  ⟨_, _, rfl⟩
/-- What the accepted word does. -/
theorem step_accepted (w : Word) : step (accepted w) = runCommand w { accepted w with agenda := [] } :=
  step_completion_busy (s := accepted w) (rest := []) rfl rfl
/-- A latched BLOCK with nothing more to come, with no session open. -/
theorem step_latched_block :
    step (latchCommand 2 State.reset) = .next (errorCompletion .noSession (latchCommand 2 State.reset)) := by
  rw [step_empty rfl, engineStep_busy (by simp), latchCommand_lcmd, runCommand_ok (i := .block) (by decide)]
  exact exec_block_closed rfl
/-- The accepted BLOCK, with no session open. -/
theorem step_accepted_block :
    step (accepted 2) = .next (errorCompletion .noSession { accepted 2 with agenda := [] }) := by
  rw [step_accepted, runCommand_ok (i := .block) (by decide)]
  exact exec_block_closed rfl
theorem test_witness_OnlyKeyschedOpensASession :
    ∃ s t : State, step s = .next t ∧ s.sessValid = false ∧ t.sessValid = true := by
  have h := exec_keysched_ok (alg := 0) (keylen := 8) (.inl ⟨rfl, by decide, by decide⟩) .enc .ecb
    { accepted 0x00000801 with agenda := [] }
  have e : step (accepted 0x00000801) = exec (.keysched 0 .enc .ecb 8) { accepted 0x00000801 with agenda := [] } := by
    rw [step_accepted, runCommand_ok (i := .keysched 0 .enc .ecb 8) (by decide)]
  exact ⟨_, _, e.trans h, rfl, by simp⟩
theorem test_witness_ErrorsCloseTheSession :
    (∃ s t : State, s.busy = true ∧ s.agenda = [.completion] ∧ step s = .next t ∧ t.err ≠ 0) ∧
    (∃ s t : State, s.busy = true ∧ s.agenda = [] ∧ step s = .next t ∧ t.err ≠ 0) :=
  ⟨⟨_, _, rfl, rfl, step_accepted_block, by simp⟩, ⟨_, _, rfl, rfl, step_latched_block, by simp⟩⟩
/-- A host write, next on the agenda, of an otherwise idle or busy engine. -/
theorem step_write (s : State) (off : Nat) (v : Word) (h : off < 4096) (h4 : off % 4 = 0)
    (ha : s.agenda = [.access { master := .host, addr := Config.base + off, size := 4, kind := .write v }]) :
    step s = .next (logReply .host (regWrite (regAt off) v { s with agenda := [] }, .written)) := by
  rw [step_access ha, performAccess, portAccess_host h, windowAccess_write h4]
/-- ERRF set and then cleared by a W1C write, and set by an error; OVR cleared, and set by a dropped write. -/
theorem test_witness_ErrfAndOvrAreSticky :
    (∃ s t : State, step s = .next t ∧ s.errf = true ∧ t.errf = false ∧ s.ovr = true ∧ t.ovr = false) ∧
    (∃ s t : State, step s = .next t ∧ s.errf = false ∧ t.errf = true) ∧
    (∃ s t : State, step s = .next t ∧ s.ovr = false ∧ t.ovr = true) :=
  ⟨⟨_, _, step_write { accessing 0x00C 4 (.write 0xC) with errf := true, ovr := true } 0x00C 0xC (by decide) (by decide) rfl,
      rfl, rfl, rfl, rfl⟩,
    ⟨_, _, step_accepted_block, rfl, by simp⟩,
    ⟨_, _, step_write { accessing 0x010 4 (.write 0) with busy := true } 0x010 0 (by decide) (by decide) rfl, rfl, rfl⟩⟩

end Sys2Proof.Tests
end

/-! PROOFS. The invariant of the engine (`Inv`): each completion establishes it, an access and a reset keep it, so every
step does. -/

namespace Sys2Proof.Machine

/-! ### What a completion has to find -/

/-- The part of `Inv` about the session, its chaining value and its output: what a command owes `complete`, which
writes the rest. -/
structure SessionSound (s : State) : Prop where
  closed : ClosedIsClear s
  keyUnits : KeyUnitsLegal s
  ecb : EcbHasNoChaining s
  short : BlowfishOutputShort s

theorem Inv.sessionSound {s : State} (h : Inv s) : SessionSound s := ⟨h.closed, h.keyUnits, h.ecb, h.short⟩

/-- With no session open, the clear fields are all that `SessionSound` asks for. -/
theorem ClosedIsClear.sessionSound {s : State} (h : ClosedIsClear s) (hs : s.sessValid = false) : SessionSound s := by
  obtain ⟨halg, -, -, htk, hcv⟩ := h hs
  exact ⟨h, by simp [KeyUnitsLegal, halg, htk], fun _ => hcv, by simp [BlowfishOutputShort, hs]⟩

/-- R222: session close clears what `ClosedIsClear` names. -/
theorem closedIsClear_closeSession (s : State) : ClosedIsClear (closeSession s) := by
  simp [ClosedIsClear, TFSchedule.zero]

theorem closedIsClear_closeIfOpen {s : State} (h : ClosedIsClear s) : ClosedIsClear (closeIfOpen s) := by
  cases hs : s.sessValid with
  | false => rwa [closeIfOpen_of_closed hs]
  | true =>
    rw [closeIfOpen_of_open hs]
    exact closedIsClear_closeSession s

theorem closedIsClear_keyschedEntry {s : State} (h : ClosedIsClear s) : ClosedIsClear (keyschedEntry s) :=
  closedIsClear_closeIfOpen (s := { s with keybuf := zeroBytes 56 }) h

theorem closedIsClear_clearBuffers {s : State} (h : ClosedIsClear s) : ClosedIsClear (clearBuffers s) := by
  intro hs
  obtain ⟨halg, hdir, hmode, htk, -⟩ := h hs
  exact ⟨halg, hdir, hmode, htk, rfl⟩

/-- R55 asks nothing of an open session. -/
theorem closedIsClear_of_open {s : State} (h : s.sessValid = true) : ClosedIsClear s := by simp [ClosedIsClear, h]

/-! ### The two completions -/

/-- R285: a successful completion over a sound session, with a NOUT that R47 allows. -/
theorem inv_complete {n : Nat} {s : State} (h : SessionSound s) (hn : n ≤ 16) : Inv (complete n s) where
  closed := h.closed
  keyUnits := h.keyUnits
  ecb := h.ecb
  codes := .inr (by simp)
  error := by simp [ErrorLeavesNothing]
  status := ⟨by simp, by simp; omega⟩
  short := h.short

/-- R281, R282: every error has a produced code and its detail. -/
theorem errCode_errDetail_produced (e : CmdError) :
    (errCode e = 7 ∧ (errDetail e = 1 ∨ errDetail e = 2 ∨ errDetail e = 3)) ∨
    ((errCode e).toNat ≤ 5 ∧ errDetail e = 0) := by
  cases e <;> decide

/-- R286: an error completion leaves no session, whichever state it begins in. -/
theorem inv_errorCompletion (e : CmdError) {s : State} (h : ClosedIsClear s) : Inv (errorCompletion e s) := by
  have hclosed : ClosedIsClear (errorCompletion e s) := closedIsClear_closeIfOpen h
  have hsound := hclosed.sessionSound (errorCompletion_sessValid e s)
  exact {
    closed := hsound.closed
    keyUnits := hsound.keyUnits
    ecb := hsound.ecb
    codes := errCode_errDetail_produced e
    error := fun _ => by simp
    status := by simp [StatusConsistent]
    short := hsound.short }

/-- A successful completion that closes the session. -/
theorem inv_complete_closeSession {n : Nat} (hn : n ≤ 16) (s : State) : Inv (complete n (closeSession s)) :=
  inv_complete ((closedIsClear_closeSession s).sessionSound rfl) hn

/-! ### The sessions that commands leave -/

/-- R232, R233: an ECB block step keeps the chaining value. -/
theorem modeBlock_ecb_chaining {s : State} (h : s.sMode = .ecb) (a : Alg) (x : Block a) :
    (modeBlock a s x).2 = chainingValue a s := by
  cases hd : s.sDir <;> simp [h, hd]

/-- R236: bytes from the block size on are 0 in the output of a block. -/
theorem setOutput_doutbuf_getElem_of_le {a : Alg} (y : Block a) (s : State) {i : Fin 16} (h : blockSize a ≤ i.val) :
    (setOutput a y s).doutbuf[i] = 0 := by
  simp [Nat.not_lt.mpr h]

/-- R230: BLOCK leaves a sound session sound: CV moves only in CBC, and DOUT is bs bytes and zeros. -/
theorem sessionSound_block {s : State} (h : SessionSound s) (hs : s.sessValid = true) {x y c : Block s.sAlg}
    (hx : modeBlock s.sAlg s x = (y, c)) : SessionSound (setOutput s.sAlg y (setChaining s.sAlg c s)) where
  closed := closedIsClear_of_open (by simpa using hs)
  keyUnits := by simpa [KeyUnitsLegal] using h.keyUnits
  ecb := by
    intro hmode
    rw [setOutput_sMode, setChaining_sMode] at hmode
    have hc : c = chainingValue s.sAlg s := by rw [← modeBlock_ecb_chaining hmode s.sAlg x, hx]
    rw [setOutput_cv, setChaining_cv, hc, chainingValue, overlayBytes_takeBytes]
    exact h.ecb hmode
  short := by
    intro _ halg i hi
    rw [setOutput_sAlg, setChaining_sAlg] at halg
    exact setOutput_doutbuf_getElem_of_le y _ (by simpa only [halg] using hi)

/-- R54, R184: TK of a derived Twofish schedule, in 64-bit units of the key. -/
theorem tfDeriveSchedule_tk (kb : List Byte) : (tfDeriveSchedule kb).tk = kb.length / 8 := by
  unfold tfDeriveSchedule
  rfl

/-- R228: a key of at most 56 bytes has KEYLEN bytes. -/
theorem keyBytes_length {keylen : Nat} (h : keylen ≤ 56) (s : State) : (keyBytes s keylen).length = keylen := by
  simp [keyBytes, h]

/-- R226, R229: the session that KEYSCHED opens over a closed, clear engine with DOUT zeroed. -/
theorem sessionSound_openSession {alg keylen : Nat} (hk : KeyLegal alg keylen) (dir : Dir) (mode : Mode) (s : State)
    {u : State} (hclosed : ClosedIsClear u) (hu : u.sessValid = false) (hdout : u.doutbuf = zeroBytes 16) :
    SessionSound (openSession (algOf alg) dir mode (deriveSchedule (algOf alg) (keyBytes s keylen) u)) where
  closed := closedIsClear_of_open rfl
  keyUnits := by
    rcases hk with ⟨rfl, -, -⟩ | ⟨rfl, hlen⟩
    · obtain ⟨-, -, -, htk, -⟩ := hclosed hu
      simp [KeyUnitsLegal, algOf, htk]
    · have htk : (tfDeriveSchedule (keyBytes s keylen)).tk = keylen / 8 := by
        rw [tfDeriveSchedule_tk, keyBytes_length (by omega)]
      simp [KeyUnitsLegal, algOf, htk]
      omega
  ecb := fun hmode => by
    obtain rfl : mode = .ecb := hmode
    rfl
  short := by simp [BlowfishOutputShort, hdout]

/-! ### Every event keeps the invariant -/

/-- R224: every command word keeps the invariant, by its answers. -/
theorem inv_runCommand {w : Word} {s t : State} (h : Inv s) (ht : runCommand w s = .next t) : Inv t := by
  cases hw : decode w with
  | error e =>
    cases (runCommand_error hw s).symm.trans ht
    exact inv_errorCompletion _ h.closed
  | ok i =>
    rw [runCommand_ok hw] at ht
    cases i with
    | nop =>
      cases (exec_nop s).symm.trans ht
      exact inv_complete h.sessionSound (Nat.zero_le _)
    | zeroize =>
      cases (exec_zeroize s).symm.trans ht
      have hclear := closedIsClear_clearBuffers (closedIsClear_closeIfOpen h.closed)
      exact inv_complete (hclear.sessionSound (by simp)) (Nat.zero_le _)
    | keysched alg dir mode keylen =>
      have hentry := closedIsClear_keyschedEntry h.closed
      rcases exec_keysched_cases alg dir mode keylen s with ⟨e, -, he⟩ | ⟨hk, he⟩ <;> cases he.symm.trans ht
      · exact inv_errorCompletion e hentry
      · exact inv_complete (sessionSound_openSession hk dir mode s hentry (by simp) (by simp)) (Nat.zero_le _)
    | block =>
      rcases exec_block_cases s with ⟨-, he⟩ | ⟨hs, y, c, hx, he⟩ <;> cases he.symm.trans ht
      · exact inv_errorCompletion _ h.closed
      · exact inv_complete (sessionSound_block h.sessionSound hs hx) (blockSize_le _)
    | final n =>
      rcases exec_final_cases n s with ⟨-, he⟩ | ⟨-, -, -, he⟩ | ⟨-, -, -, y, c, -, he⟩ | ⟨-, -, -, he⟩ |
        ⟨hs, -, -, y, c, -, ⟨-, he⟩ | ⟨-, he⟩⟩ <;> cases he.symm.trans ht
      · exact inv_errorCompletion _ h.closed
      · exact inv_errorCompletion _ h.closed
      · exact inv_complete_closeSession (blockSize_le _) _
      · exact inv_errorCompletion _ h.closed
      · exact inv_complete_closeSession ((Nat.sub_le _ _).trans (blockSize_le _)) _
      · exact inv_errorCompletion _ (closedIsClear_of_open hs)

/-- The invariant speaks of the results, which an access leaves, and of BUSY and DONE. -/
theorem Inv.of_sameResults {s t : State} (h : Inv s) (hr : SameResults t s) (hst : t.busy = true → t.done = false) :
    Inv t := by
  obtain ⟨herr, hdetail, hnout, hdout, hsess, halg, hdir, hmode, hcv, -, htf⟩ := hr
  exact {
    closed := by simpa only [ClosedIsClear, hsess, halg, hdir, hmode, hcv, htf] using h.closed
    keyUnits := by simpa only [KeyUnitsLegal, halg, htf] using h.keyUnits
    ecb := by simpa only [EcbHasNoChaining, hmode, hcv] using h.ecb
    codes := by simpa only [CodesProduced, herr, hdetail] using h.codes
    error := by simpa only [ErrorLeavesNothing, herr, hsess, hdout, hnout] using h.error
    status := ⟨hst, by simpa only [hnout] using h.status.2⟩
    short := by simpa only [BlowfishOutputShort, hsess, halg, hdout] using h.short }

/-- R40, R223: an access keeps DONE at 0 while BUSY. -/
theorem performAccess_done_of_busy {a : BusAccess} {s : State} (h : s.busy = true → s.done = false)
    (hb : (performAccess a s).busy = true) : (performAccess a s).done = false := by
  rw [performAccess_busy] at hb
  rw [performAccess_done]
  rcases portAccess_cases a s with he | ⟨v, -, -, -, he⟩ <;> rw [he] at hb ⊢
  · exact h hb
  · obtain ⟨-, -, -, -, -, ⟨hbusy, hdone⟩ | ⟨-, -, -, hdone⟩⟩ := regWrite_frame (regAt (a.addr - Config.base)) v s
    · rw [hbusy] at hb
      simpa [h hb] using hdone
    · exact hdone

theorem inv_performAccess {s : State} (h : Inv s) (a : BusAccess) : Inv (performAccess a s) :=
  h.of_sameResults (performAccess_sameResults a s) (performAccess_done_of_busy h.status.1)

/-- R58, R320: reset gives a closed, clear engine, whatever it found. -/
theorem inv_resetEngine (s : State) : Inv (resetEngine s) where
  closed := fun _ => ⟨rfl, rfl, rfl, rfl, rfl⟩
  keyUnits := ⟨fun _ => rfl, nofun⟩
  ecb := fun _ => rfl
  codes := .inr ⟨Nat.zero_le _, rfl⟩
  error := fun h => absurd rfl h
  status := ⟨nofun, Nat.zero_le _⟩
  short := nofun

/-- The invariant does not name the agenda. -/
theorem inv_afterEvent {s : State} (h : Inv s) : Inv (afterEvent s) :=
  h.of_sameResults (t := afterEvent s) (SameResults.refl s) h.status.1

end Sys2Proof.Machine

namespace Sys2Proof.Proofs

open Sys2Proof.Machine

/-- Settles O54: a step is nothing, a command, an access or a reset, and each keeps the invariant. -/
theorem invariantKept : Obligations.InvariantKept := by
  intro s t h ht
  have hnow := inv_afterEvent h
  rcases step_cases s with ⟨-, he⟩ | ⟨-, -, he⟩ | ⟨a, -, -, he⟩ | ⟨-, -, he⟩
  · cases he.symm.trans ht
    exact hnow
  · exact inv_runCommand hnow (he.symm.trans ht)
  · cases he.symm.trans ht
    exact inv_performAccess hnow a
  · cases he.symm.trans ht
    exact inv_resetEngine _

/-- Settles O53: the reset state is what a reset makes of itself. -/
theorem invariantAtReset : Obligations.InvariantAtReset := inv_resetEngine State.reset

end Sys2Proof.Proofs

/-! PROOFS. The register window: the bits of the words that software reads, the bytes that a write stores, and what an
access reveals. -/

namespace Sys2Proof.Machine

/-! ### The registers at the offsets that the statements name (R32) -/

@[simp] theorem regAt_id : regAt 0x000 = .id := by decide
@[simp] theorem regAt_version : regAt 0x004 = .version := by decide
@[simp] theorem regAt_ctrl : regAt 0x008 = .ctrl := by decide
@[simp] theorem regAt_status : regAt 0x00C = .status := by decide
@[simp] theorem regAt_cmd : regAt 0x010 = .cmd := by decide
@[simp] theorem regAt_session : regAt 0x014 = .session := by decide
@[simp] theorem regAt_result : regAt 0x018 = .result := by decide

/-- R34: a write to a register that is read-only changes nothing. -/
theorem windowAccess_write_readOnly {off : Nat} (h4 : off % 4 = 0)
    (h : off = 0x000 ∨ off = 0x004 ∨ off = 0x014 ∨ off = 0x018 ∨ (0x0A0 ≤ off ∧ off ≤ 0x0AC)) (v : Word) (s : State) :
    windowAccess off 4 (.write v) s = (s, .written) := by
  rw [windowAccess_write h4]
  rcases h with rfl | rfl | rfl | rfl | ⟨hlo, hhi⟩
  · rfl
  · rfl
  · rfl
  · rfl
  · obtain ⟨n, hn⟩ := regAt_dout_range (off := off) ⟨hlo, by omega⟩
    rw [hn]
    rfl

/-- R34: a register that is write-only reads 0. -/
theorem windowAccess_read_writeOnly {off : Nat} (h4 : off % 4 = 0)
    (h : off = 0x010 ∨ (0x040 ≤ off ∧ off ≤ 0x074)) (s : State) : windowAccess off 4 .read s = (s, .data 0) := by
  rw [windowAccess_read h4]
  rcases h with rfl | ⟨hlo, hhi⟩
  · rfl
  · obtain ⟨n, hn⟩ := regAt_key_range (off := off) ⟨hlo, by omega⟩
    rw [hn]
    rfl

/-- R42, R327: the registers whose writes wait for an idle engine. -/
theorem regWrite_busy {off : Nat}
    (h : off = 0x010 ∨ (0x040 ≤ off ∧ off ≤ 0x074) ∨ (0x080 ≤ off ∧ off ≤ 0x09C)) (h4 : off % 4 = 0) (v : Word)
    {s : State} (hb : s.busy = true) : regWrite (regAt off) v s = { s with ovr := true } := by
  rcases h with rfl | ⟨hlo, hhi⟩ | ⟨hlo, hhi⟩
  · exact unlessBusy_busy hb _
  · obtain ⟨n, hn⟩ := regAt_key_range (off := off) ⟨hlo, by omega⟩
    rw [hn, regWrite, unlessBusy_busy hb]
  · rcases Nat.lt_or_ge off 0x090 with hiv | hdin
    · obtain ⟨n, hn⟩ := regAt_iv_range (off := off) ⟨hlo, hiv⟩
      rw [hn, regWrite, unlessBusy_busy hb]
    · obtain ⟨n, hn⟩ := regAt_din_range (off := off) ⟨hdin, by omega⟩
      rw [hn, regWrite, unlessBusy_busy hb]

/-! ### The words of CTRL, STATUS, SESSION and RESULT -/

/-- A word has no bit of a mask whose every bit it has at 0. -/
theorem and_eq_zero_of_getLsbD {w m : Word} (h : ∀ i < 32, m.getLsbD i = true → w.getLsbD i = false) :
    w &&& m = 0 := by
  apply BitVec.eq_of_getLsbD_eq
  intro i hi
  cases hm : m.getLsbD i with
  | false => simp [hm]
  | true => simp [h i hi hm]

/-- R37: CTRL bit by bit. -/
theorem ctrlWord_getLsbD (s : State) (i : Nat) :
    (ctrlWord s).getLsbD i = if i = 0 then s.ieDone else if i = 1 then s.ieErr else false := by
  rw [ctrlWord, BitVec.getLsbD_or, flagBit_getLsbD _ _ _ (by decide), flagBit_getLsbD _ _ _ (by decide)]
  rcases Nat.lt_trichotomy i 1 with h | rfl | h
  · obtain rfl : i = 0 := by omega
    simp
  · simp
  · simp [show i ≠ 0 by omega, show i ≠ 1 by omega]

/-- R47: RESULT bit by bit. -/
theorem resultWord_getLsbD (s : State) (i : Nat) : (resultWord s).getLsbD i = s.nout.getLsbD i := by
  rw [resultWord, BitVec.getLsbD_setWidth]
  rcases Nat.lt_or_ge i 32 with h | h
  · simp [h]
  · simp [BitVec.getLsbD_of_ge s.nout i (by omega)]

/-- R38: ERR is STATUS[11:8]. -/
theorem statusWord_err (s : State) : (statusWord s).extractLsb' 8 4 = s.err := by
  apply BitVec.eq_of_getLsbD_eq
  intro i hi
  rw [BitVec.getLsbD_extractLsb', statusWord_getLsbD]
  simp [hi, show 8 + i ≠ 1 by omega, show 8 + i ≠ 2 by omega, show 8 + i ≠ 3 by omega, show 8 + i ≠ 4 by omega,
    show 8 + i < 12 by omega]

/-- R38: DETAIL is STATUS[23:16]. -/
theorem statusWord_detail (s : State) : (statusWord s).extractLsb' 16 8 = s.detail := by
  apply BitVec.eq_of_getLsbD_eq
  intro i hi
  rw [BitVec.getLsbD_extractLsb', statusWord_getLsbD]
  simp [hi, show 16 + i ≠ 1 by omega, show 16 + i ≠ 2 by omega, show 16 + i ≠ 3 by omega, show 16 + i ≠ 4 by omega,
    show ¬ 16 + i < 8 by omega, show ¬ 16 + i < 12 by omega, show 16 + i < 24 by omega]

/-- R37: CTRL[31:2] is 0. -/
theorem ctrlWord_high (s : State) : (ctrlWord s).extractLsb' 2 30 = 0 := by
  apply BitVec.eq_of_getLsbD_eq
  intro i hi
  simp [ctrlWord_getLsbD, show 2 + i ≠ 1 by omega]

/-- R47: NOUT is RESULT[4:0]. -/
theorem resultWord_nout (s : State) : (resultWord s).extractLsb' 0 5 = s.nout := by
  apply BitVec.eq_of_getLsbD_eq
  intro i hi
  simp [resultWord_getLsbD, hi]

/-- R47: RESULT[31:5] is 0. -/
theorem resultWord_high (s : State) : (resultWord s).extractLsb' 5 27 = 0 := by
  apply BitVec.eq_of_getLsbD_eq
  intro i hi
  simp [BitVec.getLsbD_extractLsb', resultWord_getLsbD]

/-- R37: the mask of bits 31:2 finds nothing in CTRL. -/
theorem ctrlWord_reserved (s : State) : ctrlWord s &&& 0xFFFFFFFC = 0 := by
  apply and_eq_zero_of_getLsbD
  intro i hi hm
  rw [ctrlWord_getLsbD]
  have : i ≠ 0 := by rintro rfl; simp at hm
  have : i ≠ 1 := by rintro rfl; simp at hm
  simp [*]

/-- R38: the mask of bits 31:24, 15:12 and 7:5 finds nothing in STATUS. -/
theorem statusWord_reserved (s : State) : statusWord s &&& 0xFF00F0E0 = 0 := by
  apply and_eq_zero_of_getLsbD
  intro i hi
  rw [statusWord_getLsbD]
  interval_cases i <;> simp

/-- R47: the mask of bits 31:5 finds nothing in RESULT. -/
theorem resultWord_reserved (s : State) : resultWord s &&& 0xFFFFFFE0 = 0 := by
  apply and_eq_zero_of_getLsbD
  intro i hi hm
  rw [resultWord_getLsbD]
  rcases Nat.lt_or_ge i 5 with h | h
  · interval_cases i <;> simp at hm
  · exact BitVec.getLsbD_of_ge _ _ h

/-- R46: the word of an open session, from its three parameters. -/
def sessionBits (a : Alg) (d : Dir) (m : Mode) : Word :=
  BitVec.ofNat 32 (blockSize a) <<< 8 ||| (modeBit m).setWidth 32 <<< 3 ||| (dirBit d).setWidth 32 <<< 2
    ||| (algBits a).setWidth 32

theorem sessionWord_open {s : State} (h : s.sessValid = true) :
    sessionWord s = sessionBits s.sAlg s.sDir s.sMode := by rw [sessionWord, if_pos h, sessionBits]

theorem sessionWord_closed {s : State} (h : s.sessValid = false) : sessionWord s = 0 := by simp [sessionWord, h]

/-- R46: the fields of SESSION at their bits, over the eight kinds of session. -/
theorem sessionBits_fields (a : Alg) (d : Dir) (m : Mode) :
    (sessionBits a d m).extractLsb' 0 2 = algBits a ∧ (sessionBits a d m).getLsbD 2 = decide (d = .dec) ∧
    (sessionBits a d m).getLsbD 3 = decide (m = .cbc) ∧ (sessionBits a d m).extractLsb' 4 4 = 0 ∧
    (sessionBits a d m).extractLsb' 8 5 = BitVec.ofNat 5 (blockSize a) ∧
    (sessionBits a d m).extractLsb' 13 19 = 0 := by
  cases a <;> cases d <;> cases m <;> decide

/-- R46: the mask of bits 31:13 and 7:4 finds nothing in SESSION. -/
theorem sessionWord_reserved (s : State) : sessionWord s &&& 0xFFFFE0F0 = 0 := by
  cases hs : s.sessValid with
  | false => rw [sessionWord_closed hs]; decide
  | true =>
    rw [sessionWord_open hs]
    cases s.sAlg <;> cases s.sDir <;> cases s.sMode <;> decide

/-- R37: a CTRL write looks at bits 1:0 only. -/
theorem writeCtrl_mask (v : Word) (s : State) : writeCtrl v s = writeCtrl (v &&& 0x00000003) s := by
  simp [writeCtrl]

/-- R38: a STATUS write looks at bits 3:1 only. -/
theorem clearStatus_mask (v : Word) (s : State) : clearStatus v s = clearStatus (v &&& 0x0000000E) s := by
  simp [clearStatus]

/-! ### The lanes of the buffers (R72) -/

/-- R72: byte j of the word of register n is byte 4n + j of the buffer. -/
theorem byteOf_readLane {m : Nat} (b : Vector Byte m) (n : Nat) (h : 4 * n + 3 < m) (j : Fin 4) :
    byteOf (readLane b n) j.val = b[4 * n + j.val] := by
  rw [readLane_eq b n h]
  fin_cases j
  · exact byteOf_le32_0 ..
  · exact byteOf_le32_1 ..
  · exact byteOf_le32_2 ..
  · exact byteOf_le32_3 ..

/-- R48: what a write to register n leaves in each byte of the buffer, with the bytes of v written out. -/
theorem writeLane_getElem_fin {m : Nat} (b : Vector Byte m) (n : Nat) (v : Word) (i : Fin m) :
    (writeLane b n v)[i] = if i.val / 4 = n then v.extractLsb' (8 * (i.val % 4)) 8 else b[i] :=
  writeLane_getElem b n v i.val i.isLt

/-- R72: the four words of a 16-byte buffer after a write to one of them. -/
theorem readLane_writeLane (b : Vector Byte 16) (n k : Fin 4) (v : Word) :
    readLane (writeLane b n.val v) k.val = if k = n then v else readLane b k.val := by
  split
  · next h => rw [h, readLane_writeLane_same b n.val v (by omega)]
  · next h => exact readLane_writeLane_other b n.val k.val v (by omega) (fun hk => h (Fin.ext hk))

/-! ### What no access reveals -/

/-- A state with other values of the elements that R45, R48, R51, R53 and R54 hide. -/
def withHidden (kb : Vector Byte 56) (cv : Vector Byte 16) (w : Word) (bf : BFSchedule) (tf : TFSchedule) (s : State) :
    State := { s with keybuf := kb, cv := cv, lcmd := w, bf := bf, tf := tf }

section

variable (kb : Vector Byte 56) (cv : Vector Byte 16) (w : Word) (bf : BFSchedule) (tf : TFSchedule)

theorem irq_withHidden (s : State) : irq (withHidden kb cv w bf tf s) = irq s := rfl

/-- No register's word is made from a hidden element. -/
theorem regRead_withHidden (r : Reg) (s : State) : regRead r (withHidden kb cv w bf tf s) = regRead r s := by
  cases r <;> rfl

/-- The interrupt after a write that waits for an idle engine: a dropped write does not move it. -/
theorem irq_unlessBusy_congr {f : State → State} {s t : State} (hbusy : t.busy = s.busy) (hirq : irq t = irq s)
    (hf : irq (f t) = irq (f s)) : irq (unlessBusy f t) = irq (unlessBusy f s) := by
  rcases Bool.eq_false_or_eq_true s.busy with hb | hb
  · rw [unlessBusy_busy (hbusy.trans hb), unlessBusy_busy hb]
    exact hirq
  · rw [unlessBusy_idle (hbusy.trans hb), unlessBusy_idle hb]
    exact hf

theorem irq_regWrite_withHidden (r : Reg) (v : Word) (s : State) :
    irq (regWrite r v (withHidden kb cv w bf tf s)) = irq (regWrite r v s) := by
  cases r with
  | id | version | ctrl | status | session | result | dout | reserved => rfl
  | cmd | key | iv | din => exact irq_unlessBusy_congr rfl rfl rfl

theorem windowAccess_withHidden (off size : Nat) (k : AccessKind) (s : State) :
    (windowAccess off size k (withHidden kb cv w bf tf s)).2 = (windowAccess off size k s).2 ∧
    irq (windowAccess off size k (withHidden kb cv w bf tf s)).1 = irq (windowAccess off size k s).1 := by
  unfold windowAccess
  split
  · cases k with
    | read => exact ⟨by rw [regRead_withHidden], irq_withHidden kb cv w bf tf s⟩
    | write v => exact ⟨rfl, irq_regWrite_withHidden kb cv w bf tf _ v s⟩
  · exact ⟨rfl, irq_withHidden kb cv w bf tf s⟩

theorem portAccess_withHidden (a : BusAccess) (s : State) :
    (portAccess a (withHidden kb cv w bf tf s)).2 = (portAccess a s).2 ∧
    irq (portAccess a (withHidden kb cv w bf tf s)).1 = irq (portAccess a s).1 := by
  unfold portAccess
  split
  · exact windowAccess_withHidden kb cv w bf tf _ a.size a.kind s
  · exact ⟨rfl, irq_withHidden kb cv w bf tf s⟩

end

end Sys2Proof.Machine

namespace Sys2Proof.Proofs

open Sys2Proof.Machine

/-- Settles O43: the registers by their access type, and the masks of the four words. -/
theorem accessTypesHold : Obligations.AccessTypesHold := by
  intro off v s h4
  exact ⟨fun h => windowAccess_write_readOnly h4 h v s, fun h => windowAccess_read_writeOnly h4 h s,
    ctrlWord_reserved s, statusWord_reserved s, sessionWord_reserved s, resultWord_reserved s,
    writeCtrl_mask v s, clearStatus_mask v s⟩

/-- Settles O44, from the words' bits (`statusWord_getLsbD`, `ctrlWord_getLsbD`). -/
theorem statusReadsItsFields : Obligations.StatusReadsItsFields := by
  intro s
  have hbit (i : Nat) : (regRead .status s).getLsbD i = _ := statusWord_getLsbD s i
  exact ⟨windowAccess_read rfl s, hbit 0, hbit 1, hbit 2, hbit 3, hbit 4, statusWord_err s, statusWord_detail s,
    windowAccess_read rfl s, ctrlWord_getLsbD s 0, ctrlWord_getLsbD s 1, ctrlWord_high s⟩

/-- Settles O45: the fields of the word of an open session. -/
theorem sessionReadsItsFields : Obligations.SessionReadsItsFields := by
  intro s
  refine ⟨windowAccess_read rfl s, fun hs => ?_, sessionWord_closed⟩
  obtain ⟨halg, hdir, hmode, hlow, hbs, hhigh⟩ := sessionBits_fields s.sAlg s.sDir s.sMode
  rw [← sessionWord_open hs] at halg hdir hmode hlow hbs hhigh
  exact ⟨halg.trans (by cases s.sAlg <;> rfl), hdir, hmode, hlow, hbs.trans (by cases s.sAlg <;> rfl), hhigh⟩

/-- Settles O46: the bits of RESULT and the lanes of DOUT. -/
theorem identityAndResultReads : Obligations.IdentityAndResultReads := by
  intro s
  refine ⟨windowAccess_read rfl s, windowAccess_read rfl s, windowAccess_read rfl s, resultWord_nout s,
    resultWord_high s, fun n => ⟨?_, ?_⟩⟩
  · rw [windowAccess_read (by omega), regAt_dout]
  · exact byteOf_readLane s.doutbuf n.val (by omega)

/-- Settles O47: the buffer after the write is `writeLane` of the buffer before. -/
theorem keyWriteFillsItsLanes : Obligations.KeyWriteFillsItsLanes := by
  intro n v s hs
  refine ⟨writeLane s.keybuf n.val v, ?_, writeLane_getElem_fin s.keybuf n.val v⟩
  rw [windowAccess_write (by omega), regAt_key, regWrite, unlessBusy_idle hs]

/-- Settles O48: as O47, and the lanes read back by `readLane_writeLane`. -/
theorem dataWritesReadBack : Obligations.DataWritesReadBack := by
  intro n v s hs
  constructor
  · refine ⟨writeLane s.ivbuf n.val v, ?_, writeLane_getElem_fin s.ivbuf n.val v, fun m => ?_⟩
    · rw [windowAccess_write (by omega), regAt_iv, regWrite, unlessBusy_idle hs]
    · rw [windowAccess_read (by omega), regAt_iv, regRead, readLane_writeLane, regRead]
  · refine ⟨writeLane s.dinbuf n.val v, ?_, writeLane_getElem_fin s.dinbuf n.val v, fun m => ?_⟩
    · rw [windowAccess_write (by omega), regAt_din, regWrite, unlessBusy_idle hs]
    · rw [windowAccess_read (by omega), regAt_din, regRead, readLane_writeLane, regRead]

/-- Settles O55: a host access keeps `SameResults`. -/
theorem accessesLeaveResults : Obligations.AccessesLeaveResults := by
  intro s a rest h
  exact ⟨_, step_access h, performAccess_sameResults a { s with agenda := rest }⟩

/-- Settles O56: no register's word and no interrupt bit is made from a hidden element. -/
theorem secretsAreNotReadable : Obligations.SecretsAreNotReadable := by
  intro s a kb cv w bf tf
  exact portAccess_withHidden kb cv w bf tf a s

/-- Settles O42: every such offset is the register `.reserved`. -/
theorem reservedOffsetsAreInert : Obligations.ReservedOffsetsAreInert := by
  intro off v s h4 h
  rw [windowAccess_read h4, windowAccess_write h4, regAt_reserved_range h4 (by omega)]
  exact ⟨rfl, rfl⟩

/-- Settles O49: each of these registers is written through `unlessBusy`. -/
theorem busyDropsWrites : Obligations.BusyDropsWrites := by
  intro off v s hs h4 h
  rw [windowAccess_write h4, regWrite_busy h h4 v hs]

/-- Settles O50: a CTRL write is `writeCtrl`, a STATUS write is `clearStatus`. -/
theorem controlWritesAlwaysTake : Obligations.ControlWritesAlwaysTake := by
  intro v s
  have hclear (b c : Bool) : (b && !c) = if c then false else b := by cases c <;> simp
  refine ⟨windowAccess_write rfl v s, ?_⟩
  rw [windowAccess_write rfl, regAt_status, regWrite, clearStatus]
  simp only [hclear]

end Sys2Proof.Proofs

/-! PROOFS. The commands and the sticky flags: the frame of every completion, the bytes that a command ignores, the one
command that opens a session, and how ERRF and OVR move. -/

namespace Sys2Proof.Machine

/-! ### The frame of a completion (R285, R286) -/

/-- What every completion does to the bits and fields that no command computes: ERRF is set by an error, BUSY ends 0
and DONE 1, and CTRL, OVR, LCMD and the outside of the engine stay. -/
structure CompletionFrame (t s : State) : Prop where
  ieDone : t.ieDone = s.ieDone
  ieErr : t.ieErr = s.ieErr
  ovr : t.ovr = s.ovr
  lcmd : t.lcmd = s.lcmd
  agenda : t.agenda = s.agenda
  replies : t.replies = s.replies
  errf : t.errf = (s.errf || decide (t.err ≠ 0))
  busy : t.busy = false
  done : t.done = true

theorem completionFrame_complete (n : Nat) {u s : State} (h : SameOutside u s) :
    CompletionFrame (complete n u) s := by
  obtain ⟨hdone, herr, herrf, hovr, hlcmd, hagenda, hreplies⟩ := h
  exact ⟨hdone, herr, hovr, hlcmd, hagenda, hreplies, by simp [herrf], rfl, rfl⟩

theorem completionFrame_errorCompletion (e : CmdError) {u s : State} (h : SameOutside u s) :
    CompletionFrame (errorCompletion e u) s := by
  obtain ⟨hdone, herr, -, hovr, hlcmd, hagenda, hreplies⟩ := h
  exact ⟨by simpa, by simpa, by simpa, by simpa, by simpa, by simpa, by simp, rfl, rfl⟩

/-- An answer that is one of the two completions has their frame. -/
theorem completionFrame_of_completes {r : Answer} {s t : State}
    (hr : (∃ n u, r = .next (complete n u) ∧ SameOutside u s) ∨
      (∃ e u, r = .next (errorCompletion e u) ∧ SameOutside u s)) (h : r = .next t) : CompletionFrame t s := by
  rcases hr with ⟨n, u, he, hu⟩ | ⟨e, u, he, hu⟩ <;> cases he.symm.trans h
  · exact completionFrame_complete n hu
  · exact completionFrame_errorCompletion e hu

theorem exec_completionFrame {i : Instr} {s t : State} (h : exec i s = .next t) : CompletionFrame t s :=
  completionFrame_of_completes (exec_completes i s) h

theorem runCommand_completionFrame {w : Word} {s t : State} (h : runCommand w s = .next t) : CompletionFrame t s :=
  completionFrame_of_completes (runCommand_completes w s) h

/-- R48, R49: the commands that write IVBUF and KEYBUF. -/
theorem exec_buffers (i : Instr) (s : State) : ∃ t, exec i s = .next t ∧ (i ≠ .zeroize → t.ivbuf = s.ivbuf) ∧
    (i ≠ .zeroize → (∀ alg dir mode keylen, i ≠ .keysched alg dir mode keylen) → t.keybuf = s.keybuf) := by
  cases i with
  | nop => exact ⟨_, exec_nop s, by simp, by simp⟩
  | zeroize => exact ⟨_, exec_zeroize s, by simp, by simp⟩
  | keysched alg dir mode keylen =>
    rcases exec_keysched_cases alg dir mode keylen s with ⟨e, -, h⟩ | ⟨-, h⟩
    · exact ⟨_, h, by simp, by simp⟩
    · exact ⟨_, h, by simp, by simp⟩
  | block =>
    rcases exec_block_cases s with ⟨-, h⟩ | ⟨-, y, c, -, h⟩
    · exact ⟨_, h, by simp, by simp⟩
    · exact ⟨_, h, by simp, by simp⟩
  | final n =>
    rcases exec_final_cases n s with ⟨-, h⟩ | ⟨-, -, -, h⟩ | ⟨-, -, -, y, c, -, h⟩ | ⟨-, -, -, h⟩ |
      ⟨-, -, -, y, c, -, ⟨-, h⟩ | ⟨-, h⟩⟩
    all_goals exact ⟨_, h, by simp, by simp⟩

/-! ### The bytes that a command ignores -/

/-- R228: the key is the first KEYLEN bytes of KEYBUF. -/
theorem keyBytes_congr {s : State} {k : Vector Byte 56} {keylen : Nat}
    (h : ∀ i : Fin 56, i.val < keylen → k[i] = s.keybuf[i]) :
    keyBytes { s with keybuf := k } keylen = keyBytes s keylen := by
  apply List.ext_getElem
  · simp [keyBytes]
  · intro i hi _
    have hi' : i < keylen ∧ i < 56 := by simpa [keyBytes] using hi
    simpa [keyBytes] using h ⟨i, hi'.2⟩ hi'.1

/-- R226: KEYSCHED reads the buffer as its key only, and then clears it. -/
theorem exec_keysched_keybuf_congr {s : State} {k : Vector Byte 56} {keylen : Nat}
    (h : ∀ i : Fin 56, i.val < keylen → k[i] = s.keybuf[i]) (alg : Nat) (dir : Dir) (mode : Mode) :
    exec (.keysched alg dir mode keylen) { s with keybuf := k } = exec (.keysched alg dir mode keylen) s := by
  have hentry : keyschedEntry { s with keybuf := k } = keyschedEntry s := rfl
  cases he : keyschedError alg keylen with
  | some e => rw [exec_keysched_error he, exec_keysched_error he, hentry]
  | none =>
    have hk := (keyschedError_eq_none_iff alg keylen).mp he
    rw [exec_keysched_ok hk, exec_keysched_ok hk, hentry, keyBytes_congr h]

/-- Equal first bytes, equal first part. -/
theorem takeBytes_congr {m n : Nat} (hn : n ≤ m) {b b' : Vector Byte m} (h : ∀ i : Fin m, i.val < n → b[i] = b'[i]) :
    takeBytes n hn b = takeBytes n hn b' := by
  apply Vector.ext
  intro i hi
  rw [takeBytes_getElem, takeBytes_getElem]
  exact h ⟨i, by omega⟩ hi

/-- R260: the pad hides the bytes from position n on. -/
theorem padBlock_inputBlock_congr (a : Alg) {n : Nat} {s : State} {d : Vector Byte 16}
    (h : ∀ i : Fin 16, i.val < n → d[i] = s.dinbuf[i]) :
    padBlock a n (inputBlock a { s with dinbuf := d }) = padBlock a n (inputBlock a s) := by
  apply Vector.ext
  intro i hi
  have := blockSize_le a
  rw [padBlock_getElem, padBlock_getElem]
  split
  · next hin =>
    rw [inputBlock, inputBlock, takeBytes_getElem, takeBytes_getElem]
    exact h ⟨i, by omega⟩ hin
  · rfl

/-- R262: an encrypting FINAL reads DINBUF as its padded block only, and then clears it. -/
theorem exec_final_enc_dinbuf_congr {n : Nat} {s : State} {d : Vector Byte 16} (hs : s.sessValid = true)
    (hdir : s.sDir = .enc) (hn : n < blockSize s.sAlg) (h : ∀ i : Fin 16, i.val < n → d[i] = s.dinbuf[i]) :
    exec (.final n) { s with dinbuf := d } = exec (.final n) s := by
  rw [exec_final_enc (s := { s with dinbuf := d }) hs hdir rfl hn, exec_final_enc hs hdir rfl hn,
    padBlock_inputBlock_congr s.sAlg h]
  rfl

/-- R50, R51: the output of a block step depends on the first bs bytes of DINBUF and CV. -/
theorem modeBlock_inputBlock_congr (a : Alg) {s : State} {d ch : Vector Byte 16}
    (h : ∀ i : Fin 16, i.val < blockSize a → d[i] = s.dinbuf[i] ∧ ch[i] = s.cv[i]) :
    modeBlock a { s with dinbuf := d, cv := ch } (inputBlock a { s with dinbuf := d, cv := ch }) =
      modeBlock a s (inputBlock a s) := by
  have hin : inputBlock a { s with dinbuf := d, cv := ch } = inputBlock a s :=
    takeBytes_congr _ fun i hi => (h i hi).1
  have hcv : chainingValue a { s with dinbuf := d, cv := ch } = chainingValue a s :=
    takeBytes_congr _ fun i hi => (h i hi).2
  rw [hin, modeBlock, modeBlock, hcv]

/-! ### The command that opens a session -/

/-- R43, R55, R221: of all commands only a legal KEYSCHED ends with a session where none was open. -/
theorem exec_opens_session {i : Instr} {s t : State} (h : exec i s = .next t) (hs : s.sessValid = false)
    (ht : t.sessValid = true) : ∃ alg dir mode keylen, i = .keysched alg dir mode keylen ∧ KeyLegal alg keylen ∧
      t.sAlg = algOf alg ∧ t.sDir = dir ∧ t.sMode = mode := by
  cases i with
  | nop =>
    cases (exec_nop s).symm.trans h
    simp [hs] at ht
  | zeroize =>
    cases (exec_zeroize s).symm.trans h
    simp at ht
  | block =>
    cases (exec_block_closed hs).symm.trans h
    simp at ht
  | final n =>
    cases (exec_final_closed n hs).symm.trans h
    simp at ht
  | keysched alg dir mode keylen =>
    rcases exec_keysched_cases alg dir mode keylen s with ⟨e, -, he⟩ | ⟨hk, he⟩ <;> cases he.symm.trans h
    · simp at ht
    · exact ⟨alg, dir, mode, keylen, rfl, hk, rfl, rfl, rfl⟩

/-- R109: the same of a latched word; one that decodes to no command opens nothing. -/
theorem runCommand_opens_session {w : Word} {s t : State} (h : runCommand w s = .next t) (hs : s.sessValid = false)
    (ht : t.sessValid = true) : ∃ alg dir mode keylen, decode w = .ok (.keysched alg dir mode keylen) ∧
      KeyLegal alg keylen ∧ t.sAlg = algOf alg ∧ t.sDir = dir ∧ t.sMode = mode := by
  cases hw : decode w with
  | error e =>
    cases (runCommand_error hw s).symm.trans h
    simp at ht
  | ok i =>
    rw [runCommand_ok hw] at h
    obtain ⟨alg, dir, mode, keylen, rfl, hrest⟩ := exec_opens_session h hs ht
    exact ⟨alg, dir, mode, keylen, rfl, hrest⟩

/-- R46: S_ALG of a legal KEYSCHED is its ALG field. -/
theorem KeyLegal.algBits_algOf {alg keylen : Nat} (h : KeyLegal alg keylen) :
    algBits (algOf alg) = BitVec.ofNat 2 alg := by
  rcases h with ⟨rfl, -⟩ | ⟨rfl, -⟩ <;> rfl

/-! ### How an access moves ERRF and OVR -/

/-- R38: an access that performs a STATUS write of v. -/
def IsStatusWrite (a : BusAccess) (v : Word) : Prop :=
  a.kind = .write v ∧ a.size = 4 ∧ a.addr = Config.base + 0x00C

/-- R38, R41, R42: a STATUS write clears ERRF and OVR by its bits; every other access keeps ERRF, and moves OVR only
when it is a write to a busy engine, which sets it. -/
theorem performAccess_sticky (a : BusAccess) (s : State) :
    (∃ v, IsStatusWrite a v ∧ (performAccess a s).errf = (s.errf && !v.getLsbD 2) ∧
      (performAccess a s).ovr = (s.ovr && !v.getLsbD 3)) ∨
    ((performAccess a s).errf = s.errf ∧ ((performAccess a s).ovr = s.ovr ∨
      (s.busy = true ∧ (performAccess a s).ovr = true ∧ ∃ v, a.kind = .write v))) := by
  rw [performAccess_errf, performAccess_ovr]
  rcases portAccess_cases a s with he | ⟨v, hreach, hadm, hkind, he⟩ <;> rw [he]
  · exact .inr ⟨rfl, .inl rfl⟩
  by_cases hr : regAt (a.addr - Config.base) = .status
  · have hbase : Config.base ≤ a.addr := by
      simp only [reaches, Bool.and_eq_true, decide_eq_true_iff] at hreach
      exact hreach.1.2
    have hsize : a.size = 4 := by
      simp only [admitted, Bool.and_eq_true, decide_eq_true_iff] at hadm
      exact hadm.1
    have hoff := regAt_eq_status.mp hr
    rw [hr]
    exact .inl ⟨v, ⟨hkind, hsize, by omega⟩, rfl, rfl⟩
  · obtain ⟨-, -, -, herrf, hovr, -⟩ := regWrite_frame (regAt (a.addr - Config.base)) v s
    rw [if_neg hr] at herrf
    rcases hovr with hovr | ⟨hstatus, -⟩ | ⟨hbusy, hovr⟩
    · exact .inr ⟨herrf, .inl hovr⟩
    · exact absurd hstatus hr
    · exact .inr ⟨herrf, .inr ⟨hbusy, hovr, v, hkind⟩⟩

/-- R224: the step in which the command in progress completes. -/
theorem step_completionPoint {s : State} (hb : s.busy = true)
    (h : s.agenda = [] ∨ ∃ rest, s.agenda = .completion :: rest) : step s = runCommand s.lcmd (afterEvent s) := by
  rcases h with h | ⟨rest, h⟩
  · rw [step_empty h, afterEvent_of_nil h, engineStep_busy hb]
  · rw [afterEvent_of_cons h, step_completion_busy h hb]

/-- R38, R41, R42, R320: every step, by what it does to ERRF and OVR: a completion, a reset, a STATUS write, or a step
that keeps ERRF and sets OVR at most, by a write to a busy engine. -/
theorem step_sticky {s t : State} (h : step s = .next t) :
    (s.busy = true ∧ CompletionFrame t (afterEvent s)) ∨
    (∃ rest, s.agenda = .resetPulse :: rest ∧ t.errf = false ∧ t.ovr = false) ∨
    (∃ a rest v, s.agenda = .access a :: rest ∧ IsStatusWrite a v ∧ t.errf = (s.errf && !v.getLsbD 2) ∧
      t.ovr = (s.ovr && !v.getLsbD 3)) ∨
    (t.errf = s.errf ∧ (t.ovr = s.ovr ∨ (s.busy = true ∧ t.ovr = true ∧
      ∃ a rest v, s.agenda = .access a :: rest ∧ a.kind = .write v))) := by
  rcases step_cases s with ⟨-, he⟩ | ⟨hb, -, he⟩ | ⟨a, rest, ha, he⟩ | ⟨rest, ha, he⟩
  · cases he.symm.trans h
    exact .inr (.inr (.inr ⟨rfl, .inl rfl⟩))
  · exact .inl ⟨hb, runCommand_completionFrame (he.symm.trans h)⟩
  · cases he.symm.trans h
    rcases performAccess_sticky a (afterEvent s) with ⟨v, hw, hflags⟩ | ⟨herrf, hovr | ⟨hb, hovr, v, hk⟩⟩
    · exact .inr (.inr (.inl ⟨a, rest, v, ha, hw, hflags⟩))
    · exact .inr (.inr (.inr ⟨herrf, .inl hovr⟩))
    · exact .inr (.inr (.inr ⟨herrf, .inr ⟨hb, hovr, a, rest, v, ha, hk⟩⟩))
  · cases he.symm.trans h
    exact .inr (.inl ⟨rest, ha, rfl, rfl⟩)

end Sys2Proof.Machine

namespace Sys2Proof.Proofs

open Sys2Proof.Machine

/-- Settles O22: the frame that the two completions share, and the two buffers that only some commands write. -/
theorem commandFrame : Obligations.CommandFrame := by
  intro i s
  obtain ⟨t, h, hiv, hkey⟩ := exec_buffers i s
  have hf := exec_completionFrame h
  exact ⟨t, h, hf.ieDone, hf.ieErr, hf.ovr, hf.lcmd, hf.agenda, hf.replies, hiv, hkey, hf.errf, hf.busy, hf.done⟩

/-- Settles O38: the key is a prefix of KEYBUF, the pad hides the tail of DINBUF, and a Blowfish block step takes the
first eight bytes of DINBUF and CV. -/
theorem ignoredBytesDoNotMatter : Obligations.IgnoredBytesDoNotMatter := by
  refine ⟨fun alg keylen dir mode s k h => exec_keysched_keybuf_congr h alg dir mode,
    fun n s d hs hdir hn h => exec_final_enc_dinbuf_congr hs hdir hn h, fun s d ch hs halg h => ?_⟩
  refine ⟨_, _, exec_block_open hs halg, exec_block_open (s := { s with dinbuf := d, cv := ch }) hs halg, ?_⟩
  rw [modeBlock_inputBlock_congr .blowfish h]
  rfl

/-- Settles O58: an access, a reset and an idle step leave the engine without a session, and of the commands only a
legal KEYSCHED opens one. -/
theorem onlyKeyschedOpensASession : Obligations.OnlyKeyschedOpensASession := by
  intro s t h hs ht
  rcases step_cases s with ⟨-, he⟩ | ⟨hb, -, he⟩ | ⟨a, -, -, he⟩ | ⟨-, -, he⟩
  · cases he.symm.trans h
    exact Bool.noConfusion (hs.symm.trans ht)
  · obtain ⟨alg, dir, mode, keylen, hw, hk, halg, hdir, hmode⟩ :=
      runCommand_opens_session (s := afterEvent s) (he.symm.trans h) hs ht
    exact ⟨hb, alg, dir, mode, keylen, hw, hk, halg ▸ hk.algBits_algOf, hdir, hmode⟩
  · cases he.symm.trans h
    obtain ⟨-, -, -, -, hsess, -⟩ := performAccess_sameResults a (afterEvent s)
    exact Bool.noConfusion ((hsess.trans hs).symm.trans ht)
  · cases he.symm.trans h
    exact Bool.noConfusion ht

/-- Settles O60, clause by clause for each kind of step of `step_sticky`. -/
theorem errfAndOvrAreSticky : Obligations.ErrfAndOvrAreSticky := by
  intro s t h
  have hpoint : s.busy = true → (s.agenda = [] ∨ ∃ rest, s.agenda = .completion :: rest) →
      t.errf = (s.errf || decide (t.err ≠ 0)) := fun hb ha =>
    (runCommand_completionFrame ((step_completionPoint hb ha).symm.trans h)).errf
  rcases step_sticky h with ⟨hb, hf⟩ | ⟨rest, ha, herrf, hovr⟩ | ⟨a, rest, v, ha, ⟨hk, hsize, haddr⟩, herrf, hovr⟩ |
    ⟨herrf, hovr⟩
  · have herrf : t.errf = (s.errf || decide (t.err ≠ 0)) := hf.errf
    have hovr : t.ovr = s.ovr := hf.ovr
    exact ⟨fun h1 h0 => by simp [herrf, h1] at h0, fun h0 h1 => ⟨hb, hf.busy, by simpa [herrf, h0] using h1⟩, hpoint,
      fun h1 h0 => by simp [hovr, h1] at h0, fun h0 h1 => by simp [hovr, h0] at h1⟩
  · exact ⟨fun _ _ => .inl ⟨rest, ha⟩, fun _ h1 => by simp [herrf] at h1, hpoint, fun _ _ => .inl ⟨rest, ha⟩,
      fun _ h1 => by simp [hovr] at h1⟩
  · exact ⟨fun h1 h0 => .inr ⟨a, rest, v, ha, hk, hsize, haddr, by simpa [herrf, h1] using h0⟩,
      fun h0 h1 => by simp [herrf, h0] at h1, hpoint,
      fun h1 h0 => .inr ⟨a, rest, v, ha, hk, hsize, haddr, by simpa [hovr, h1] using h0⟩,
      fun h0 h1 => by simp [hovr, h0] at h1⟩
  · refine ⟨fun h1 h0 => by simp [herrf, h1] at h0, fun h0 h1 => by simp [herrf, h0] at h1, hpoint, ?_, ?_⟩
    · intro h1 h0
      rcases hovr with hovr | ⟨-, hovr, -⟩ <;> simp [hovr, h1] at h0
    · intro h0 h1
      rcases hovr with hovr | ⟨hb, -, hwrite⟩
      · simp [hovr, h0] at h1
      · exact ⟨hb, hwrite⟩

/-- Settles O10: every field but the agenda and the replies is that of the reset state. -/
theorem resetAbandonsAndClears : Obligations.ResetAbandonsAndClears := by
  intro s rest h
  exact ⟨_, step_resetPulse h, rfl, rfl, rfl, rfl, rfl, rfl, rfl, rfl, rfl, rfl, rfl, rfl, rfl, rfl, rfl, rfl, rfl, rfl,
    rfl, rfl, rfl, rfl⟩

end Sys2Proof.Proofs

/-! PROOFS. The bus port: what an access at the head of the agenda does when it is refused, admitted, or falls outside
the window. -/

namespace Sys2Proof.Machine

/-! ### Which accesses reach the window, and which are refused (R71, R73) -/

theorem reaches_iff (a : BusAccess) : reaches a = true ↔
    mayReach a.master = true ∧ Config.base ≤ a.addr ∧ a.addr < Config.base + 4096 := by
  rw [reaches, Bool.and_eq_true, Bool.and_eq_true, decide_eq_true_eq, decide_eq_true_eq, and_assoc, Config.windowBytes]

theorem admitted_eq_false_iff (off size : Nat) : admitted off size = false ↔ size ≠ 4 ∨ off % 4 ≠ 0 := by
  simp [admitted, imp_iff_not_or]

theorem windowAccess_refused {off size : Nat} (h : size ≠ 4 ∨ off % 4 ≠ 0) (k : AccessKind) (s : State) :
    windowAccess off size k s = (s, .busError) := by
  simp [windowAccess, (admitted_eq_false_iff off size).mpr h]

theorem portAccess_refused {a : BusAccess} (hr : reaches a = true)
    (h : a.size ≠ 4 ∨ (a.addr - Config.base) % 4 ≠ 0) (s : State) : portAccess a s = (s, .busError) := by
  rw [portAccess, if_pos hr, windowAccess_refused h]

theorem portAccess_notReached {a : BusAccess} (h : reaches a = false) (s : State) :
    portAccess a s = (s, .notReached) := by
  simp [portAccess, h]

/-! ### The step of an access -/

/-- R76, R81: an access whose answer `r` leaves the engine alone is only recorded. -/
theorem step_access_unchanged {s : State} {a : BusAccess} {rest : List Event} {r : Reply}
    (h : s.agenda = .access a :: rest) (hr : portAccess a { s with agenda := rest } = ({ s with agenda := rest }, r)) :
    step s = .next { s with agenda := rest, replies := (a.master, r) :: s.replies } := by
  rw [step_access h, performAccess, hr]
  rfl

/-- R76: no register's write moves the replies (log 3), so the answer is put before those of the state it began in. -/
theorem logReply_regWrite (m : Master) (r : Reg) (v : Word) (s : State) :
    logReply m (regWrite r v s, .written) = { regWrite r v s with replies := (m, .written) :: s.replies } := by
  obtain ⟨-, -, hreplies, -⟩ := regWrite_frame r v s
  rw [logReply, hreplies]

end Sys2Proof.Machine

namespace Sys2Proof.Proofs

open Sys2Proof.Machine

/-- Settles O40: a read leaves the state of the port, a write is its register's, and each answer is recorded. -/
theorem admittedAccessIsPerformed : Obligations.AdmittedAccessIsPerformed := by
  intro s m off rest hm hoff h4
  refine ⟨fun h => step_access_unchanged h ?_, fun v h => ?_⟩
  · rw [portAccess_window hm hoff, windowAccess_read h4]
  · rw [step_access h, performAccess, portAccess_window hm hoff, windowAccess_write h4, logReply_regWrite]

/-- Settles O39: the access reaches the window and is refused there. -/
theorem refusedAccessChangesNothing : Obligations.RefusedAccessChangesNothing := by
  intro s a rest h hm hlo hhi hbad
  exact step_access_unchanged h (portAccess_refused ((reaches_iff a).mpr ⟨hm, hlo, hhi⟩) hbad _)

/-- Settles O41: an address below or above the window does not reach it, whoever asks. -/
theorem foreignAccessLeavesTheEngine : Obligations.ForeignAccessLeavesTheEngine := by
  intro s a rest h hout
  have hr : reaches a = false := by
    rw [Bool.eq_false_iff, ne_eq, reaches_iff]
    rintro ⟨-, hlo, hhi⟩
    omega
  exact step_access_unchanged h (portAccess_notReached hr _)

end Sys2Proof.Proofs

/-! PROOFS. The bits that feed no command: a command with other values of CTRL, DONE, ERRF and OVR ends in the same
completion. -/

namespace Sys2Proof.Machine

/-- A state with other values of IE_DONE, IE_ERR, OVR, DONE and ERRF. -/
def withControl (a b c d e : Bool) (s : State) : State :=
  { s with ieDone := a, ieErr := b, ovr := c, done := d, errf := e }

section

variable (a b c d e : Bool)

/-! ### The shared operations neither read nor write these bits -/

theorem closeIfOpen_withControl (s : State) :
    closeIfOpen (withControl a b c d e s) = withControl a b c d e (closeIfOpen s) := by
  cases hs : s.sessValid with
  | false => rw [closeIfOpen_of_closed hs, closeIfOpen_of_closed (s := withControl a b c d e s) hs]
  | true =>
    rw [closeIfOpen_of_open hs, closeIfOpen_of_open (s := withControl a b c d e s) hs]
    rfl

theorem keyschedEntry_withControl (s : State) :
    keyschedEntry (withControl a b c d e s) = withControl a b c d e (keyschedEntry s) :=
  congrArg (fun t : State => { t with doutbuf := zeroBytes 16 })
    (closeIfOpen_withControl a b c d e { s with keybuf := zeroBytes 56 })

theorem deriveSchedule_withControl (g : Alg) (kb : List Byte) (s : State) :
    deriveSchedule g kb (withControl a b c d e s) = withControl a b c d e (deriveSchedule g kb s) := by
  cases g <;> rfl

/-! ### The two completions over other bits -/

/-- R285: `complete` keeps the other values, but for DONE, which it sets. -/
theorem complete_withControl (n : Nat) (s : State) : complete n (withControl a b c d e s) =
    { complete n s with ieDone := a, ieErr := b, ovr := c, errf := e || decide ((complete n s).err ≠ 0) } := by
  simp [complete, withControl]

/-- R286: the error completion keeps them too, but for DONE and ERRF, which it sets. -/
theorem errorCompletion_withControl (err : CmdError) (s : State) : errorCompletion err (withControl a b c d e s) =
    { errorCompletion err s with
      ieDone := a, ieErr := b, ovr := c, errf := e || decide ((errorCompletion err s).err ≠ 0) } := by
  rw [errorCompletion, closeIfOpen_withControl]
  simp [errorCompletion, withControl]

/-! ### Every command, over other bits -/

/-- `x` and `y` are the same completion, `y` over the state of `x` with other values of the bits. -/
def SameCompletion (x y : Answer) : Prop :=
  (∃ n u, x = .next (complete n u) ∧ y = .next (complete n (withControl a b c d e u))) ∨
  (∃ err u, x = .next (errorCompletion err u) ∧ y = .next (errorCompletion err (withControl a b c d e u)))

theorem sameCompletion_keysched (alg : Nat) (dir : Dir) (mode : Mode) (keylen : Nat) (s : State) :
    SameCompletion a b c d e (exec (.keysched alg dir mode keylen) s)
      (exec (.keysched alg dir mode keylen) (withControl a b c d e s)) := by
  rcases exec_keysched_cases alg dir mode keylen s with ⟨err, herr, h⟩ | ⟨hk, h⟩
  · refine .inr ⟨err, _, h, ?_⟩
    rw [exec_keysched_error herr, keyschedEntry_withControl]
  · refine .inl ⟨0, _, h, ?_⟩
    rw [exec_keysched_ok hk, keyschedEntry_withControl, deriveSchedule_withControl]
    rfl

theorem sameCompletion_block (s : State) :
    SameCompletion a b c d e (exec .block s) (exec .block (withControl a b c d e s)) := by
  cases hs : s.sessValid with
  | false => exact .inr ⟨_, s, exec_block_closed hs, exec_block_closed hs⟩
  | true => exact .inl ⟨_, _, exec_block_open hs rfl, exec_block_open (s := withControl a b c d e s) hs rfl⟩

theorem sameCompletion_final (n : Nat) (s : State) :
    SameCompletion a b c d e (exec (.final n) s) (exec (.final n) (withControl a b c d e s)) := by
  rcases exec_final_cases n s with ⟨hs, h⟩ | ⟨hs, hd, hn, h⟩ | ⟨hs, hd, hn, y, ch, hx, h⟩ | ⟨hs, hd, hn, h⟩ |
    ⟨hs, hd, rfl, y, ch, hx, ⟨hp, h⟩ | ⟨hp, h⟩⟩
  · exact .inr ⟨_, s, h, exec_final_closed n hs⟩
  · exact .inr ⟨_, s, h, exec_final_enc_count hs hd hn⟩
  · obtain ⟨rfl, rfl⟩ := Prod.ext_iff.mp hx
    exact .inl ⟨_, _, h, exec_final_enc (s := withControl a b c d e s) hs hd rfl hn⟩
  · exact .inr ⟨_, s, h, exec_final_dec_count hs hd hn⟩
  · obtain ⟨rfl, rfl⟩ := Prod.ext_iff.mp hx
    exact .inl ⟨_, _, h, exec_final_dec_ok (s := withControl a b c d e s) hs hd rfl rfl hp⟩
  · obtain ⟨rfl, rfl⟩ := Prod.ext_iff.mp hx
    exact .inr ⟨_, _, h, exec_final_dec_bad (s := withControl a b c d e s) hs hd rfl rfl hp⟩

theorem sameCompletion_exec (i : Instr) (s : State) :
    SameCompletion a b c d e (exec i s) (exec i (withControl a b c d e s)) := by
  cases i with
  | nop => exact .inl ⟨0, s, exec_nop s, exec_nop _⟩
  | zeroize =>
    refine .inl ⟨0, _, exec_zeroize s, ?_⟩
    rw [exec_zeroize, closeIfOpen_withControl]
    rfl
  | keysched alg dir mode keylen => exact sameCompletion_keysched a b c d e alg dir mode keylen s
  | block => exact sameCompletion_block a b c d e s
  | final n => exact sameCompletion_final a b c d e n s

end

end Sys2Proof.Machine

namespace Sys2Proof.Proofs

open Sys2Proof.Machine

/-- Settles O57: with the other values a command ends in the same completion, and neither completion computes more from
them than the ERRF it keeps. -/
theorem controlBitsDoNotFeedCommands : Obligations.ControlBitsDoNotFeedCommands := by
  intro i s a b c d e
  rcases sameCompletion_exec a b c d e i s with ⟨n, u, h, h'⟩ | ⟨err, u, h, h'⟩
  · exact ⟨_, h, h'.trans (congrArg _ (complete_withControl a b c d e n u))⟩
  · exact ⟨_, h, h'.trans (congrArg _ (errorCompletion_withControl a b c d e err u))⟩

end Sys2Proof.Proofs

/-! PROOFS. Encoding and dispatch: what decodes to a command, by OP, must-be-zero bits and operands, and what the step
makes of a word that decodes and of one that does not. -/

namespace Sys2Proof

open Sys2Proof.Laws

/-! ### What decodes to a command (R107-R110) -/

/-- R107: the command with its operands as they stand in a word. -/
def readOperands (w : Word) : Instr → Instr
  | .keysched _ _ _ _ => .keysched (algField w) (dirField w) (modeField w) (keylenField w)
  | .final _ => .final (nbytesField w)
  | .nop => .nop
  | .block => .block
  | .zeroize => .zeroize

/-- R109: a word decodes to a command when it has the command's OP, no must-be-zero bit set, and its operands. -/
theorem decode_eq_ok_iff {w : Word} {i : Instr} :
    decode w = .ok i ↔ opField w = opValue i ∧ w &&& mbzMask (opValue i) = 0 ∧ readOperands w i = i := by
  constructor
  · intro h
    have hop : opField w < 5 := by
      by_contra hge
      simp [decode_badOpcode (Nat.not_lt.mp hge)] at h
    have hmbz : w &&& mbzMask (opField w) = 0 := by
      by_contra hset
      simp [decode_badField hop hset] at h
    have hi := (decode_dispatch hop hmbz).symm.trans h
    have hval : opField w = 0 ∨ opField w = 1 ∨ opField w = 2 ∨ opField w = 3 ∨ opField w = 4 := by omega
    rcases hval with hv | hv | hv | hv | hv <;> rw [hv] at hi hmbz <;> cases hi <;> exact ⟨hv, hmbz, rfl⟩
  · rintro ⟨hop, hmbz, hi⟩
    rw [← hop] at hmbz
    have hlt : opField w < 5 := by
      rw [hop]
      cases i <;> simp [opValue]
    rw [decode_dispatch hlt hmbz, hop, ← hi]
    cases i <;> rfl

/-- R108: only KEYSCHED and FINAL leave more than the OP field free. -/
theorem mbzMask_eq (op : Nat) :
    mbzMask op = if op = 1 then 0xFFFFC000 else if op = 3 then 0xFFF0FFF0 else 0xFFFFFFF0 := by
  match op with
  | 0 | 1 | 2 | 3 | _ + 4 => simp [mbzMask]

/-- R110: a row of the opcode map asks for its OP in the low four bits and 0 under the rest of its mask. -/
theorem and_rowMask_iff (w : Word) {m v : Word} (hm : m &&& 0xF = 0) (hv : v &&& 0xF = v) :
    w &&& (m ||| 0xF) = v ↔ opField w = v.toNat ∧ w &&& m = 0 := by
  have hop : opField w = v.toNat ↔ w &&& 0xF = v := by
    rw [BitVec.toNat_eq, BitVec.toNat_and, opField_eq]
    exact Eq.congr_left (Nat.and_two_pow_sub_one_eq_mod w.toNat 4).symm
  rw [hop]
  constructor
  · intro h
    have hlow : w &&& 0xF = w &&& (m ||| 0xF) &&& 0xF := by
      rw [BitVec.and_assoc, BitVec.and_or_distrib_right, hm]
      simp
    have hmbz : w &&& m = w &&& (m ||| 0xF) &&& m := by
      rw [BitVec.and_assoc, BitVec.and_or_distrib_right, BitVec.and_comm (0xF) m, hm]
      simp
    rw [hlow, hmbz, h, hv, ← hv, BitVec.and_assoc, BitVec.and_comm _ m, hm]
    simp
  · rintro ⟨hlow, hmbz⟩
    rw [BitVec.and_or_distrib_left, hmbz, hlow]
    simp

/-- R110: a word decodes to a command when it matches the command's row, mask `m`, and has its operands. -/
theorem decode_eq_ok_iff_row {w m : Word} {i : Instr} (hm : mbzMask (opValue i) ||| 0xF = m) :
    decode w = .ok i ↔ w &&& m = BitVec.ofNat 32 (opValue i) ∧ readOperands w i = i := by
  have hrow : mbzMask (opValue i) &&& 0xF = 0 ∧ BitVec.ofNat 32 (opValue i) &&& 0xF = BitVec.ofNat 32 (opValue i) ∧
      (BitVec.ofNat 32 (opValue i)).toNat = opValue i := by
    cases i <;> simp [opValue, mbzMask]
  obtain ⟨hmbz, hval, hnat⟩ := hrow
  rw [← hm, and_rowMask_iff w hmbz hval, hnat, and_assoc, decode_eq_ok_iff]

/-! ### The fields of an encoded command (R103, R104, R107) -/

theorem dirField_eq_iff (w : Word) (d : Dir) : dirField w = d ↔ w.toNat / 64 % 2 = (dirBit d).toNat := by
  cases d <;> simp [dirField_eq, dirBit]

theorem modeField_eq_iff (w : Word) (m : Mode) : modeField w = m ↔ w.toNat / 128 % 2 = (modeBit m).toNat := by
  cases m <;> simp [modeField_eq, modeBit]

theorem opField_encode (i : Instr) : opField (encode i) = opValue i := by
  cases i with
  | nop => exact OpOfEncode.nop
  | keysched alg dir mode keylen => exact OpOfEncode.keysched alg dir mode keylen
  | block => exact OpOfEncode.block
  | final n => exact OpOfEncode.final n
  | zeroize => exact OpOfEncode.zeroize

theorem and_eq_zero_of_toNat_lt {w m : Word} {n : Nat} (hw : w.toNat < 2 ^ n) (hm : ∀ i < n, m.getLsbD i = false) :
    w &&& m = 0 := by
  apply Machine.and_eq_zero_of_getLsbD
  intro i _ hset
  have hni : n ≤ i := by
    by_contra hlt
    simp [hm i (Nat.not_le.mp hlt)] at hset
  exact Nat.testBit_lt_two_pow (hw.trans_le (Nat.pow_le_pow_right (by decide) hni))

/-- R108, R110: no operand of a well-formed command reaches a must-be-zero bit. -/
theorem encode_mbz {i : Instr} (h : i.wf = true) : encode i &&& mbzMask (opValue i) = 0 := by
  cases i with
  | nop | block | zeroize => rfl
  | keysched alg dir mode keylen =>
    obtain ⟨halg, hlen⟩ : alg < 4 ∧ keylen < 64 := by simpa [Instr.wf] using h
    have hdir := (dirBit dir).isLt
    have hmode := (modeBit mode).isLt
    refine and_eq_zero_of_toNat_lt (n := 14) (m := 0xFFFFC000) ?_ (by decide)
    rw [encode_keysched_toNat alg keylen dir mode halg hlen]
    omega
  | final n =>
    have hall : ∀ k : Fin 16, encode (.final k.val) &&& mbzMask 3 = 0 := by decide
    exact hall ⟨n, by simpa [Instr.wf] using h⟩

/-- R107, R110: the operands of a well-formed command stand in its word. -/
theorem readOperands_encode {i : Instr} (h : i.wf = true) : readOperands (encode i) i = i := by
  cases i with
  | nop | block | zeroize => rfl
  | keysched alg dir mode keylen =>
    obtain ⟨halg, hlen⟩ : alg < 4 ∧ keylen < 64 := by simpa [Instr.wf] using h
    have hdir := (dirBit dir).isLt
    have hmode := (modeBit mode).isLt
    simp only [readOperands, Instr.keysched.injEq, algField_eq, dirField_eq_iff, modeField_eq_iff, keylenField_eq,
      encode_keysched_toNat alg keylen dir mode halg hlen]
    omega
  | final n =>
    have hn : n < 16 := by simpa [Instr.wf] using h
    simp only [readOperands, Instr.final.injEq, nbytesField_eq, encode_final_toNat n hn]
    omega

/-- R100: operands read from a word fit their fields. -/
theorem wf_readOperands (w : Word) (i : Instr) : (readOperands w i).wf = true := by
  cases i with
  | nop | block | zeroize => rfl
  | keysched => simp [readOperands, Instr.wf, algField_eq, keylenField_eq, Nat.mod_lt]
  | final => simp [readOperands, Instr.wf, nbytesField_eq, Nat.mod_lt]

/-- R110: a word without must-be-zero bits is the word of the command that its fields give. -/
theorem encode_readOperands {w : Word} {i : Instr} (hop : opField w = opValue i)
    (hmbz : w &&& mbzMask (opValue i) = 0) : encode (readOperands w i) = w := by
  rw [opField_eq] at hop
  apply BitVec.eq_of_toNat_eq
  cases i with
  | nop | block | zeroize =>
    have hlt := (mask_op_iff w).mp hmbz
    exact hop.symm.trans (Nat.mod_eq_of_lt hlt)
  | keysched =>
    have hlt := mask_keysched w hmbz
    have hdir := (dirField_eq_iff w _).mp rfl
    have hmode := (modeField_eq_iff w _).mp rfl
    rw [readOperands, encode_keysched_toNat _ _ _ _ (by rw [algField_eq]; omega) (by rw [keylenField_eq]; omega),
      algField_eq, keylenField_eq, ← hdir, ← hmode]
    simp only [opValue] at hop
    omega
  | final =>
    have hlt := mask_final w hmbz
    rw [readOperands, encode_final_toNat _ (by rw [nbytesField_eq]; omega), nbytesField_eq]
    simp only [opValue] at hop
    omega

end Sys2Proof

namespace Sys2Proof.Machine

/-- R286, field by field, over a session that may be open. -/
theorem errorCompletion_eq (e : CmdError) (s : State) : errorCompletion e s =
    { s with
      bf := if s.sessValid then BFSchedule.zero else s.bf
      tf := if s.sessValid then TFSchedule.zero else s.tf
      cv := if s.sessValid then zeroBytes 16 else s.cv
      dinbuf := if s.sessValid then zeroBytes 16 else s.dinbuf
      sAlg := if s.sessValid then .blowfish else s.sAlg
      sDir := if s.sessValid then .enc else s.sDir
      sMode := if s.sessValid then .ecb else s.sMode
      sessValid := false
      doutbuf := zeroBytes 16
      nout := 0
      err := errCode e
      detail := errDetail e
      errf := true
      busy := false
      done := true } := by
  apply State.ext_fields <;> simp

end Sys2Proof.Machine

namespace Sys2Proof.Proofs

open Sys2Proof.Laws Sys2Proof.Machine

/-- Settles O2: the word of a well-formed command has its OP, no must-be-zero bit, and its operands. -/
theorem decodeOfEncode : Obligations.DecodeOfEncode := by
  intro i hwf
  exact decode_eq_ok_iff.mpr ⟨opField_encode i, encode_mbz hwf, readOperands_encode hwf⟩

/-- Settles O3: an accepted word is made of its OP and the operands read from it. -/
theorem encodeOfDecode : Obligations.EncodeOfDecode := by
  intro w i h
  obtain ⟨hop, hmbz, hi⟩ := decode_eq_ok_iff.mp h
  rw [← hi]
  exact ⟨encode_readOperands hop hmbz, wf_readOperands w i⟩

/-- Settles O4: each row's match and mask are its OP and its must-be-zero bits. -/
theorem decodeFollowsOpcodeMap : Obligations.DecodeFollowsOpcodeMap := by
  intro w
  have hbare : ∀ i, mbzMask (opValue i) ||| 0xF = 0xFFFFFFFF → readOperands w i = i →
      (decode w = .ok i ↔ w &&& 0xFFFFFFFF = BitVec.ofNat 32 (opValue i)) :=
    fun i hm hi => (decode_eq_ok_iff_row hm).trans (and_iff_left hi)
  refine ⟨hbare .nop rfl rfl, fun alg dir mode keylen => ?_, hbare .block rfl rfl, fun n => ?_,
    hbare .zeroize rfl rfl⟩
  · rw [decode_eq_ok_iff_row (m := 0xFFFFC00F) (by simp [opValue, mbzMask])]
    simp only [readOperands, Instr.keysched.injEq, algField_eq, dirField_eq, modeField_eq, keylenField_eq,
      eq_comm (b := alg), eq_comm (b := dir), eq_comm (b := mode), eq_comm (b := keylen)]
    rfl
  · rw [decode_eq_ok_iff_row (m := 0xFFF0FFFF) (by simp [opValue, mbzMask])]
    simp only [readOperands, Instr.final.injEq, nbytesField_eq, eq_comm (b := n)]
    rfl

/-- Settles O8: the engine step answers a next state, and so do an access and a reset. -/
theorem everyStepAnswersNext : Obligations.EveryStepAnswersNext := by
  intro s
  cases hagenda : s.agenda with
  | nil => simpa only [SafeStep, step_empty hagenda] using engineStep_next s
  | cons e rest =>
    cases e with
    | access a => exact ⟨_, step_access hagenda⟩
    | completion => simpa only [SafeStep, step_completion hagenda] using engineStep_next { s with agenda := rest }
    | resetPulse => exact ⟨_, step_resetPulse hagenda⟩

/-- Settles O1: eight fixed words, by evaluation. -/
theorem exampleWordsDecode : Obligations.ExampleWordsDecode := by
  unfold Obligations.ExampleWordsDecode
  decide

/-- Settles O5: the three branches of `decode`, with the masks of `mbzMask_eq`. -/
theorem decodeRejectsByName : Obligations.DecodeRejectsByName := by
  intro w
  simp only [← opField_eq, ← mbzMask_eq]
  exact ⟨decode_badOpcode, decode_badField, fun hop hmbz => ⟨_, decode_dispatch hop hmbz⟩⟩

/-- Settles O6: the engine step of a busy engine runs LCMD. -/
theorem stepRunsDecodedCommand : Obligations.StepRunsDecodedCommand := by
  intro s i hbusy hi
  constructor
  · intro rest hagenda
    rw [step_completion_busy hagenda hbusy, runCommand_ok hi]
  · intro hagenda
    rw [step_empty hagenda, engineStep_busy hbusy, runCommand_ok hi]

/-- Settles O7: at either completion point the step is the error completion of the decoding failure. -/
theorem stepReportsRejectedWord : Obligations.StepReportsRejectedWord := by
  intro s e rest hbusy he hagenda
  have hafter : afterEvent s = { s with agenda := rest } := by
    rcases hagenda with hc | ⟨hn, rfl⟩
    · exact afterEvent_of_cons hc
    · simp [afterEvent, hn]
  have hpoint : s.agenda = [] ∨ ∃ rest, s.agenda = .completion :: rest :=
    hagenda.symm.imp And.left fun hc => ⟨rest, hc⟩
  rw [step_completionPoint hbusy hpoint, hafter, runCommand_error he, errorCompletion_eq]
  cases e <;> rfl

end Sys2Proof.Proofs

/-! PROOFS. The Blowfish unit: the rounds that decryption undoes, the key as bytes of P, and the fill as a chain of
encryptions. -/

namespace Sys2Proof.Machine

/-! ### The rounds undone (R133, R134, R142) -/

/-- R134: with the entries n + 1 down to 2, decryption undoes the rounds with the entries 0 to n - 1. -/
theorem foldl_bfRound_bfCrossed (sch : BFSchedule) (n : Nat) (lr : Word × Word) :
    ((List.range n).map (n + 1 - ·)).foldl (bfRound sch) (bfCrossed sch n ((List.range n).foldl (bfRound sch) lr)) =
      bfCrossed sch 0 lr := by
  induction n with
  | zero => rfl
  | succ n ih =>
    have entries : (List.range (n + 1)).map (n + 1 + 1 - ·) = (n + 2) :: (List.range n).map (n + 1 - ·) := by
      simp [List.range_succ_eq_map]
    rw [entries, List.foldl_cons, List.range_succ, List.foldl_append, List.foldl_cons, List.foldl_nil,
      bfRound_bfCrossed, ih]

/-- R133, R134: encryption ends on the entries 16 and 17, so it leaves the crossed output of all 16 rounds. -/
@[simp] theorem bfDecHalves_bfEncHalves (sch : BFSchedule) (lr : Word × Word) :
    bfDecHalves sch (bfEncHalves sch lr) = lr := by
  have undo : ((List.range Config.rounds).map (17 - ·)).foldl (bfRound sch) (bfEncHalves sch lr) = bfCrossed sch 0 lr :=
    foldl_bfRound_bfCrossed sch 16 lr
  rw [bfDecHalves, bfNetwork_eq, undo]
  simp [bfCrossed]

/-! ### The bytes of the key words (R138) -/

/-- R138: byte t of key word i, counted from the most significant, is byte 4i + t of the repeated key. -/
theorem byteOf_bfKeyWord (kb : List Byte) (i : Nat) (t : Fin 4) :
    byteOf (bfKeyWord kb i) (3 - t.val) = cyclicKeyByte kb (4 * i + t.val) := by
  rw [bfKeyWord, be32_eq_le32]
  fin_cases t
  · exact byteOf_le32_3 ..
  · exact byteOf_le32_2 ..
  · exact byteOf_le32_1 ..
  · exact byteOf_le32_0 ..

/-! ### The fill as a chain (R139) -/

/-- R139: the last output and the schedule after the first k encryptions of the fill. -/
def bfFillChain (sch : BFSchedule) (k : Nat) : (Word × Word) × BFSchedule :=
  (List.range k).foldl bfFillStep ((0, 0), sch)

@[simp] theorem bfFillChain_zero (sch : BFSchedule) : bfFillChain sch 0 = ((0, 0), sch) := rfl

theorem bfFillChain_succ (sch : BFSchedule) (k : Nat) :
    bfFillChain sch (k + 1) = bfFillStep (bfFillChain sch k) k := by
  rw [bfFillChain, List.range_succ, List.foldl_append]
  rfl

theorem bfFill_eq_bfFillChain (sch : BFSchedule) : bfFill sch = (bfFillChain sch 521).2 := bfFill_eq_steps sch

/-- R139: encryption k < 9 replaces P[2k] and P[2k+1]. -/
theorem bfFillStep_replaces_p {k : Nat} (hk : k < 9) (c : (Word × Word) × BFSchedule) :
    (bfFillStep c k).2 = bfSetP c.2 (2 * k) (bfFillStep c k).1 := by
  rw [bfFillStep_p hk]
  rfl

/-- R139: encryption 9 + k of the fill replaces two entries of the box k / 128. -/
theorem bfFillStep_replaces_s {k : Nat} (hk : k < 512) (c : (Word × Word) × BFSchedule) :
    (bfFillStep c (9 + k)).2 = bfSetS c.2 ⟨k / 128, by omega⟩ (2 * (k % 128)) (bfFillStep c (9 + k)).1 := by
  rw [bfFillStep_s hk]
  rfl

/-- The entry a write to box k / 128 replaces, in the numbering of all 1024 entries of S. -/
theorem bfSetS_getElem_sequence {k : Nat} (hk : k < 512) (sch : BFSchedule) (lr : Word × Word) (b : Fin 4)
    (j : Fin 256) : (bfSetS sch ⟨k / 128, by omega⟩ (2 * (k % 128)) lr).s[b][j] =
      if 256 * b.val + j.val = 2 * k then lr.1 else if 256 * b.val + j.val = 2 * k + 1 then lr.2 else sch.s[b][j] := by
  have hj := j.isLt
  rw [bfSetS_getElem]
  by_cases hb : k / 128 = b.val
  · rw [if_pos (Fin.ext hb)]
    exact if_congr (by omega) rfl (if_congr (by omega) rfl rfl)
  · rw [if_neg (fun e => hb (congrArg Fin.val e)), if_neg (by omega), if_neg (by omega)]

/-- R139: only the first encryption replaces P[0] and P[1]. -/
theorem bfFillStep_keeps_first {k : Nat} (hk : 0 < k) (c : (Word × Word) × BFSchedule) (i : Fin 18) (hi : i.val < 2) :
    (bfFillStep c k).2.p[i] = c.2.p[i] := by
  by_cases h9 : k < 9
  · rw [bfFillStep_replaces_p h9, bfSetP_getElem, if_neg (by omega), if_neg (by omega)]
  · rw [bfFillStep, if_neg h9]
    rfl

theorem bfFillChain_keeps_first (sch : BFSchedule) (k : Nat) (i : Fin 18) (hi : i.val < 2) :
    (bfFillChain sch (k + 1)).2.p[i] = (bfFillChain sch 1).2.p[i] := by
  induction k with
  | zero => rfl
  | succ k ih => rw [bfFillChain_succ, bfFillStep_keeps_first k.succ_pos _ i hi, ih]

/-- R139: P[0] and P[1] of the filled schedule are the encryption of the zero block. -/
theorem bfFill_first (sch : BFSchedule) (i : Fin 18) (hi : i.val < 2) :
    (bfFill sch).p[i] = if i.val = 0 then (bfEncHalves sch (0, 0)).1 else (bfEncHalves sch (0, 0)).2 := by
  rw [bfFill_eq_bfFillChain, bfFillChain_keeps_first sch 520 i hi, bfFillChain_succ,
    bfFillStep_replaces_p (by decide), bfSetP_getElem, bfFillStep_output, bfFillChain_zero]
  split
  · rfl
  · rw [if_pos (by omega)]

end Sys2Proof.Machine

namespace Sys2Proof.Proofs

open Sys2Proof.Machine

/-- Settles O24: a block is its two halves, and the halves decrypt to what was encrypted. -/
theorem blowfishBlocksInvert : Obligations.BlowfishBlocksInvert := by
  intro sch b
  unfold bfDecryptBlock bfEncryptBlock
  rw [bfHalves_bfBytes, bfDecHalves_bfEncHalves, bfBytes_bfHalves]

/-- Settles O26: step 2 is all that the schedule takes of the key, and it takes the first 72 cyclic bytes. -/
theorem equalCyclicKeysEqualSchedules : Obligations.EqualCyclicKeysEqualSchedules := by
  intro k1 k2 _ _ hbytes
  have hcyclic : ∀ j < 72, cyclicKeyByte k1 j = cyclicKeyByte k2 j := fun j hj => by
    simp only [cyclicKeyByte, List.getD_eq_getElem?_getD, hbytes j hj]
  unfold bfDeriveSchedule
  rw [bfXorKey_congr hcyclic]

/-- Settles O27: the chain is `bfFillChain`. -/
theorem firstFillIsKept : Obligations.FirstFillIsKept := by
  intro sch
  refine ⟨⟨fun k => (bfFillChain sch k).1, fun k => (bfFillChain sch k).2, rfl, rfl, bfFill_eq_bfFillChain sch,
    fun k _ => ?_, fun k hk => ?_, fun k hk => ?_⟩, bfFill_first sch 0 (by decide), bfFill_first sch 1 (by decide)⟩
  · simp only [bfFillChain_succ, bfFillStep_output]
  · simp only [bfFillChain_succ, bfFillStep_replaces_p hk, bfSetP_s, bfSetP_getElem, implies_true, and_self]
  · simp only [bfFillChain_succ, bfFillStep_replaces_s hk, bfSetS_p, bfSetS_getElem_sequence hk, implies_true, and_self]

/-- Settles O28: XOR goes byte by byte, and the bytes of the key word are those of the repeated key. -/
theorem keyIsXoredIntoP : Obligations.KeyIsXoredIntoP := by
  intro kb sch
  refine ⟨bfXorKey_s kb sch, fun i t => ?_⟩
  simp only [Fin.getElem_fin, bfXorKey_p, byteOf_xor, byteOf_bfKeyWord, cyclicKeyByte]

end Sys2Proof.Proofs

/-! PROOFS. The Twofish unit: the rounds that decryption undoes, the schedule by its rules, the field multiplication,
and the stages that make q0 and q1 permutations. -/

namespace Sys2Proof.Machine

/-! ### The schedule, entry by entry (R180-R184) -/

@[simp] theorem tfDeriveSchedule_k (kb : List Byte) (j : Nat) (hj : j < 40) :
    (tfDeriveSchedule kb).k[j] = tfSubkey kb (kb.length / 8) j := by
  unfold tfDeriveSchedule
  simp

@[simp] theorem tfDeriveSchedule_sk (kb : List Byte) (i : Nat) (hi : i < 4) :
    (tfDeriveSchedule kb).sk[i] = if i < kb.length / 8 then tfSboxKeyWord kb i else 0 := by
  unfold tfDeriveSchedule
  simp

/-- R183: `K[2i] <- A + B`. -/
theorem tfSubkey_even (kb : List Byte) (k i : Nat) : tfSubkey kb k (2 * i) = tfA kb k i + tfB kb k i := by
  simp [tfSubkey]

/-- R183: `K[2i+1] <- ROL(A + 2*B, 9)`. -/
theorem tfSubkey_odd (kb : List Byte) (k i : Nat) :
    tfSubkey kb k (2 * i + 1) = (tfA kb k i + 2 * tfB kb k i).rotateLeft 9 := by
  simp [tfSubkey, show (2 * i + 1) / 2 = i by omega, show (2 * i + 1) % 2 = 1 by omega]

/-- R180: a list of k words, written out for the three key lengths. -/
theorem map_range_keyUnits {k : Nat} (hk : k = 2 ∨ k = 3 ∨ k = 4) (f : Nat → Word) :
    (List.range k).map f =
      if k = 2 then [f 0, f 1] else if k = 3 then [f 0, f 1, f 2] else [f 0, f 1, f 2, f 3] := by
  rcases hk with rfl | rfl | rfl <;> rfl

/-- Bytes read one by one inside a list are a part of the list. -/
theorem map_getD_range_eq_take_drop (l : List Byte) {o n : Nat} (h : o + n ≤ l.length) :
    ((List.range n).map fun c => l.getD (o + c) 0) = (l.drop o).take n := by
  apply List.ext_getElem
  · simp only [List.length_map, List.length_range, List.length_take, List.length_drop]
    omega
  · intro i hi _
    have hn : i < n := by simpa using hi
    simp [List.getElem?_eq_getElem (show o + i < l.length by omega)]

/-- R181: the S-box key word i is RSMUL of the key bytes 8i to 8i + 7. -/
theorem tfSboxKeyWord_eq (kb : List Byte) {i : Nat} (h : 8 * i + 8 ≤ kb.length) :
    tfSboxKeyWord kb i = rsMul ((kb.drop (8 * i)).take 8) := by
  rw [tfSboxKeyWord, map_getD_range_eq_take_drop kb h]

/-! ### Multiplication in GF(2^8) (R172) -/

/-- One turn of the loop, with the accumulator set apart. -/
theorem gfMulLoop_turn (poly : BitVec 9) (n : Nat) (a : BitVec 9) (b : Byte) :
    gfMulLoop poly (n + 1) a b 0 =
      (if b.getLsbD 0 then a.setWidth 8 else 0) ^^^ gfMulLoop poly n (gfDouble poly a) (b >>> 1) 0 := by
  rw [gfMulLoop_succ, gfMulLoop_acc]
  simp

/-- The loop is additive in the second factor: at each turn the bits of the two summands add. -/
theorem gfMulLoop_xor (poly : BitVec 9) (n : Nat) (a : BitVec 9) (b c : Byte) :
    gfMulLoop poly n a (b ^^^ c) 0 = gfMulLoop poly n a b 0 ^^^ gfMulLoop poly n a c 0 := by
  induction n generalizing a b c with
  | zero => simp [gfMulLoop]
  | succ n ih =>
    have addend : (if (b ^^^ c).getLsbD 0 then a.setWidth 8 else 0) =
        (if b.getLsbD 0 then a.setWidth 8 else 0) ^^^ (if c.getLsbD 0 then a.setWidth 8 else 0) := by
      rw [BitVec.getLsbD_xor]
      cases b.getLsbD 0 <;> cases c.getLsbD 0 <;> simp
    rw [gfMulLoop_turn, gfMulLoop_turn, gfMulLoop_turn, addend, BitVec.ushiftRight_xor_distrib, ih]
    ac_rfl

@[simp] theorem gfMul_zero_right (a : Byte) (poly : BitVec 9) : gfMul a 0 poly = 0 := rfl

@[simp] theorem gfDouble_zero (poly : BitVec 9) : gfDouble poly 0 = 0 := by simp [gfDouble]

theorem gfMulLoop_zero_left (poly : BitVec 9) (n : Nat) (b : Byte) : gfMulLoop poly n 0 b 0 = 0 := by
  induction n generalizing b with
  | zero => rfl
  | succ n ih => rw [gfMulLoop_turn, gfDouble_zero, ih]; simp

@[simp] theorem gfMul_zero_left (b : Byte) (poly : BitVec 9) : gfMul 0 b poly = 0 := gfMulLoop_zero_left poly 8 b

/-- A power of x below x^7 doubles without reduction. -/
theorem gfDouble_twoPow (poly : BitVec 9) {k : Nat} (hk : k < 7) :
    gfDouble poly (BitVec.twoPow 9 k) = BitVec.twoPow 9 (k + 1) := by
  have hd : BitVec.twoPow 9 k <<< 1 = BitVec.twoPow 9 (k + 1) := by
    simp [BitVec.twoPow, BitVec.shiftLeft_add]
  have hbit : (BitVec.twoPow 9 (k + 1)).getLsbD 8 = false := by
    simp [show k ≠ 7 by omega]
  simp only [gfDouble, hd, hbit, Bool.false_eq_true, if_false]

/-- The bits of x^k as a byte. -/
theorem twoPow_getLsbD_byte {k : Nat} (hk : k < 8) (i : Nat) :
    ((BitVec.twoPow 9 k).setWidth 8).getLsbD i = decide (k = i) := by
  rw [BitVec.getLsbD_setWidth, BitVec.getLsbD_twoPow]
  by_cases hki : k = i
  · simp [← hki, hk, show k < 9 by omega]
  · simp [hki]

/-- From x^k on, n turns that stay below x^8 move the lowest n bits of the factor up by k. -/
theorem gfMulLoop_twoPow_getLsbD (poly : BitVec 9) (n k : Nat) (h : n + k ≤ 8) (b : Byte) (i : Nat) :
    (gfMulLoop poly n (BitVec.twoPow 9 k) b 0).getLsbD i = (decide (k ≤ i ∧ i < k + n) && b.getLsbD (i - k)) := by
  induction n generalizing k b with
  | zero => simp [gfMulLoop, show ¬ (k ≤ i ∧ i < k) by omega]
  | succ n ih =>
    have rest : gfMulLoop poly n (gfDouble poly (BitVec.twoPow 9 k)) (b >>> 1) 0 =
        gfMulLoop poly n (BitVec.twoPow 9 (k + 1)) (b >>> 1) 0 := by
      cases n with
      | zero => rfl
      | succ n => rw [gfDouble_twoPow poly (by omega)]
    have addend : (if b.getLsbD 0 then (BitVec.twoPow 9 k).setWidth 8 else 0).getLsbD i =
        (decide (k = i) && b.getLsbD 0) := by
      cases b.getLsbD 0
      · simp
      · simpa using twoPow_getLsbD_byte (by omega) i
    rw [gfMulLoop_turn, rest, BitVec.getLsbD_xor, addend, ih (k + 1) (by omega), BitVec.getLsbD_ushiftRight]
    rcases Nat.lt_trichotomy k i with hki | rfl | hki
    · simp [hki, hki.le, hki.ne, show 1 + (i - (k + 1)) = i - k by omega, show k + 1 + n = k + (n + 1) by omega]
    · simp
    · simp [show ¬ k ≤ i by omega, show ¬ k + 1 ≤ i by omega, show k ≠ i by omega]

@[simp] theorem gfMul_one_left (b : Byte) (poly : BitVec 9) : gfMul 1 b poly = b := by
  apply BitVec.eq_of_getLsbD_eq
  intro i hi
  have bits := gfMulLoop_twoPow_getLsbD poly 8 0 (by decide) b i
  rw [decide_eq_true ⟨i.zero_le, by omega⟩, Bool.true_and, Nat.sub_zero] at bits
  exact bits

/-! ### The q-permutations (R174) -/

/-- The inverse of `qMix`: `p.1 ^ p.2 ^ 8 * p.1` is `b ^ b >> 1`, and a nibble is the XOR of all right shifts of
that. -/
def qUnmix (p : Nibble × Nibble) : Nibble × Nibble :=
  let r := p.1 ^^^ p.2 ^^^ 8 * p.1
  let b := r ^^^ r >>> 1 ^^^ r >>> 2 ^^^ r >>> 3
  (p.1 ^^^ b, b)

theorem qUnmix_qMix : ∀ a b : Nibble, qUnmix (qMix a b) = (a, b) := by decide

theorem qMix_inj {a b c d : Nibble} (h : qMix a b = qMix c d) : a = c ∧ b = d := by
  have h' : (a, b) = (c, d) := by rw [← qUnmix_qMix, h, qUnmix_qMix]
  exact Prod.mk.inj h'

/-- A byte is its two nibbles. -/
theorem byte_eq_of_nibbles_eq {x y : Byte} (hhi : x.extractLsb' 4 4 = y.extractLsb' 4 4)
    (hlo : x.extractLsb' 0 4 = y.extractLsb' 0 4) : x = y := by
  have nibbles (z : Byte) : z.extractLsb' 4 4 ++ z.extractLsb' 0 4 = z :=
    (BitVec.extractLsb'_append_extractLsb'_eq_extractLsb' rfl).trans BitVec.extractLsb'_eq_self
  rw [← nibbles x, ← nibbles y, hhi, hlo]

/-- R174: both stages of q keep apart what differs, when the four tables do. -/
theorem qPerm_injective {t : Vector NibbleTable 4} (ht : ∀ i : Fin 4, Function.Injective (nibbleAt t[i])) :
    Function.Injective (qPerm t) := by
  intro x y h
  have hb4 := congrArg (BitVec.extractLsb' 4 4) h
  have ha4 := congrArg (BitVec.extractLsb' 0 4) h
  simp only [qPerm, BitVec.extractLsb'_append_eq_left, BitVec.extractLsb'_append_eq_right] at hb4 ha4
  obtain ⟨ha2, hb2⟩ := qMix_inj (Prod.ext (ht 2 ha4) (ht 3 hb4))
  obtain ⟨hhi, hlo⟩ := qMix_inj (Prod.ext (ht 0 ha2) (ht 1 hb2))
  exact byte_eq_of_nibbles_eq hhi hlo

theorem q0_injective : Function.Injective q0 := qPerm_injective (by decide)

theorem q1_injective : Function.Injective q1 := qPerm_injective (by decide)

end Sys2Proof.Machine

namespace Sys2Proof.Proofs

open Sys2Proof.Machine

/-- Settles O25: the whitenings and the exchange undo themselves, and the rounds are undone in reverse order. -/
theorem twofishBlocksInvert : Obligations.TwofishBlocksInvert := by
  intro sch b
  unfold tfDecryptBlock tfEncryptBlock
  rw [tfWords_tfBytes, tfWhiten_tfWhiten, tfSwap_tfSwap, foldl_reverse_undo _ _ (tfDecRound_tfEncRound sch),
    tfWhiten_tfWhiten, tfBytes_tfWords]

/-- Settles O29: the entries of the derived schedule, at the key's length. -/
theorem twofishScheduleFollowsItsRules : Obligations.TwofishScheduleFollowsItsRules := by
  intro kb k hk hlen word me mo
  have htk : kb.length / 8 = k := by omega
  have hme : tfMe kb k = me := map_range_keyUnits hk _
  have hmo : tfMo kb k = mo := map_range_keyUnits hk _
  refine ⟨(tfDeriveSchedule_tk kb).trans htk, fun i => ?_, fun i => ?_⟩
  · rw [← hme, ← hmo, tfDeriveSchedule_k, tfDeriveSchedule_k, htk, tfSubkey_even, tfSubkey_odd]
    exact ⟨rfl, rfl⟩
  · rw [Fin.getElem_fin, tfDeriveSchedule_sk, htk]
    exact if_ctx_congr Iff.rfl (fun hi => tfSboxKeyWord_eq kb (by omega)) fun _ => rfl

/-- Settles O31: the loop adds turn by turn. -/
theorem gfMulDistributes : Obligations.GfMulDistributes := fun a b c poly => gfMulLoop_xor poly 8 (a.setWidth 9) b c

/-- Settles O30: the laws of 0 and 1 hold for every polynomial word. -/
theorem gfMulCorners : Obligations.GfMulCorners :=
  ⟨fun b => ⟨gfMul_zero_left b _, gfMul_zero_right b _, gfMul_one_left b _,
    gfMul_zero_left b _, gfMul_zero_right b _, gfMul_one_left b _⟩, by decide, by decide⟩

/-- Settles O32: each stage of q0 and q1 is injective. -/
theorem qPermutationsAreInjective : Obligations.QPermutationsAreInjective :=
  ⟨fun _ _ h => q0_injective h, fun _ _ h => q1_injective h, by decide, by decide⟩

end Sys2Proof.Proofs

/-! PROOFS. The mode driver: sessions closed and opened, the engine at rest, the block step and what undoes it, and a
message from end to end. -/

namespace Sys2Proof.Machine

/-! ### The shared operations, field by field (R222, R226) -/

/-- R222, over a session that may be open. -/
theorem closeIfOpen_eq (s : State) : closeIfOpen s =
    { s with
      bf := if s.sessValid then BFSchedule.zero else s.bf
      tf := if s.sessValid then TFSchedule.zero else s.tf
      cv := if s.sessValid then zeroBytes 16 else s.cv
      dinbuf := if s.sessValid then zeroBytes 16 else s.dinbuf
      sAlg := if s.sessValid then .blowfish else s.sAlg
      sDir := if s.sessValid then .enc else s.sDir
      sMode := if s.sessValid then .ecb else s.sMode
      sessValid := false } := by
  apply State.ext_fields <;> simp

/-- R226: the checks of KEYSCHED begin with the key consumed, no session, and DOUT zeroed. -/
theorem keyschedEntry_eq (s : State) : keyschedEntry s =
    { closeIfOpen s with keybuf := zeroBytes 56, doutbuf := zeroBytes 16 } := by
  apply State.ext_fields <;> simp

/-- R227, R284: the error of every rejected KEYSCHED, by its code. -/
theorem keyschedError_of_code {alg keylen : Nat} {code : BitVec 4}
    (h : (2 ≤ alg ∧ code = 3) ∨
      (alg = 0 ∧ keylen < 4 ∧ code = 2) ∨ (alg = 0 ∧ 56 < keylen ∧ code = 1) ∨
      (alg = 1 ∧ keylen < 16 ∧ code = 2) ∨
      (alg = 1 ∧ 16 ≤ keylen ∧ keylen ≠ 16 ∧ keylen ≠ 24 ∧ keylen ≠ 32 ∧ code = 1)) :
    ∃ e, keyschedError alg keylen = some e ∧ errCode e = code ∧ errDetail e = 0 := by
  rcases h with ⟨halg, rfl⟩ | ⟨rfl, hlen, rfl⟩ | ⟨rfl, hlen, rfl⟩ | ⟨rfl, hlen, rfl⟩ | ⟨rfl, hlen, h16, h24, h32, rfl⟩
  · exact ⟨_, keyschedError_of_unknown halg keylen, rfl, rfl⟩
  · exact ⟨_, (keyschedError_blowfish keylen).trans (if_pos hlen), rfl, rfl⟩
  · exact ⟨.invalidKeyLength, by rw [keyschedError_blowfish, if_neg (by omega), if_pos hlen], rfl, rfl⟩
  · exact ⟨_, (keyschedError_twofish keylen).trans (if_pos hlen), rfl, rfl⟩
  · exact ⟨.invalidKeyLength, by rw [keyschedError_twofish, if_neg (by omega), if_neg (by omega)], rfl, rfl⟩

/-! ### The engine at rest (R224, R322) -/

/-- R224: every step takes one event off the agenda. -/
theorem step_agenda {s t : State} (h : step s = .next t) : t.agenda = s.agenda.tail := by
  rcases step_cases s with ⟨-, he⟩ | ⟨-, -, he⟩ | ⟨a, -, -, he⟩ | ⟨-, -, he⟩
  · cases he.symm.trans h
    rfl
  · exact (runCommand_completionFrame (he.symm.trans h)).agenda
  · cases he.symm.trans h
    exact performAccess_agenda a (afterEvent s)
  · cases he.symm.trans h
    rfl

/-- R224: with no event to come, the step ends with an idle engine. -/
theorem step_busy_of_empty {s t : State} (ha : s.agenda = []) (h : step s = .next t) : t.busy = false := by
  rcases Bool.eq_false_or_eq_true s.busy with hb | hb
  · rw [step_completionPoint hb (.inl ha)] at h
    exact (runCommand_completionFrame h).busy
  · rw [step_empty ha, engineStep_idle hb] at h
    cases h
    exact hb

/-- A run is its first step and the run from there. -/
theorem core_run_succ {s t : State} (h : step s = .next t) (k : Nat) : core.run (k + 1) s = core.run k t := by
  have hcore : core.step s = .next t := h
  simp only [Host.Core.run, hcore]

/-! ### The block step (R231-R236) -/

/-- R230: BLOCK in an open session, given its block step. -/
theorem exec_block_modeBlock {s : State} (hs : s.sessValid = true) {a : Alg} (ha : s.sAlg = a) {y c : Block a}
    (hx : modeBlock a s (inputBlock a s) = (y, c)) :
    exec .block s = .next (complete (blockSize a) (setOutput a y (setChaining a c s))) := by
  rw [exec_block_open hs ha, hx]

/-- R142, R187: D undoes E, for both algorithms. -/
theorem decryptWith_encryptWith (bf : BFSchedule) (tf : TFSchedule) (a : Alg) (x : Block a) :
    decryptWith bf tf a (encryptWith bf tf a x) = x := by
  cases a with
  | blowfish => exact Proofs.blowfishBlocksInvert bf x
  | twofish => exact Proofs.twofishBlocksInvert tf x

/-! ### Padding undone (R260, R263, R264) -/

/-- R260, R264: every padded block passes the pad check. -/
theorem padValid_padBlock (a : Alg) {n : Nat} (hn : n < blockSize a) (x : Block a) :
    padValid a (padBlock a n x) = true := by
  have hle := blockSize_le a
  rw [padValid_iff, padCount_padBlock a n hn]
  refine ⟨by omega, by omega, fun i hi => ?_⟩
  rw [Fin.getElem_fin, padBlock_getElem, if_neg (by omega), BitVec.toNat_ofNat]
  omega

@[simp] theorem messagePart_getElem (a : Alg) (n : Nat) (y : Block a) (i : Nat) (hi : i < 16) :
    (messagePart a n y)[i] = if h : i < blockSize a then if i < n then y[i] else 0 else 0 := by
  simp [messagePart]

/-- R263: the message part of a padded block begins with the bytes before the pad. -/
theorem messagePart_padBlock_take (a : Alg) {n : Nat} (hn : n < blockSize a) (x : Block a) :
    (messagePart a n (padBlock a n x)).toList.take n = x.toList.take n := by
  have hle := blockSize_le a
  apply List.ext_getElem
  · simp only [List.length_take, Vector.length_toList]
    omega
  · intro i hi _
    have hin : i < n := (List.length_take_le _ _).trans_lt' hi
    simp [hin, show i < blockSize a by omega]

/-! ### A block through the port (R115, R236) -/

/-- R236: STBLK[0..bs-1] is the output block. -/
theorem stBlk_take_blockSize {a : Alg} {y : Block a} {b : Vector Byte 16} {t : State}
    (h : t.doutbuf = overlayBytes y b) : (stBlk t).take (blockSize a) = y.toList := by
  have hle := blockSize_le a
  rw [stBlk_eq, h]
  apply List.ext_getElem
  · simpa using hle
  · intro i _ hi
    have hin : i < blockSize a := by simpa using hi
    simp [hin]

/-- A list of at most a block is the beginning of its first block. -/
theorem firstBlock_take {a : Alg} {m : List Byte} (h : m.length ≤ blockSize a) :
    (firstBlock a m).toList.take m.length = m := by
  apply List.ext_getElem
  · simpa using h
  · intro i _ hi
    simp [firstBlock, hi]

section

variable {bf : BFSchedule} {tf : TFSchedule} {a : Alg} {mode : Mode} {c : Block a} {s : State}

/-- R115, R223, R231: a command accepted in an open session after LDBLK: the session as the command finds it, its block
step, and the bytes of its input block. -/
theorem OpenSession.accepted_ldBlk {dir : Dir} (hs : OpenSession bf tf a dir mode c s) {m : List Byte}
    (hm : m.length ≤ blockSize a) (w : Word) :
    (ldBlk m s).busy = false ∧ (latchCommand w (ldBlk m s)).sessValid = true ∧
    (latchCommand w (ldBlk m s)).sDir = dir ∧ (latchCommand w (ldBlk m s)).sAlg = a ∧
    (∀ x, modeBlock a (latchCommand w (ldBlk m s)) x =
      chain (encryptWith bf tf a) (decryptWith bf tf a) mode dir c x) ∧
    ∀ i (h : i < m.length), (inputBlock a (latchCommand w (ldBlk m s)))[i]'(h.trans_le hm) = m[i] := by
  obtain ⟨d, hload, hd⟩ := ldBlk_idle m s hs.busy (hm.trans (blockSize_le a))
  rw [hload]
  refine ⟨hs.busy, hs.valid, hs.dir, hs.alg, fun x => ?_, fun i h => ?_⟩
  · have hc : chainingValue a (latchCommand w { s with dinbuf := d }) = c := hs.cv
    rw [modeBlock, hc]
    simp only [latchCommand_bf, latchCommand_tf, latchCommand_sMode, latchCommand_sDir, hs.mode, hs.dir, hs.bf_eq,
      hs.tf_eq]
  · rw [inputBlock, takeBytes_getElem]
    exact hd i h

/-! ### The blocks of a message (R324, R325) -/

/-- D of one pair of schedules undoes E of another. -/
def Undoes (a : Alg) (bf' : BFSchedule) (tf' : TFSchedule) (bf : BFSchedule) (tf : TFSchedule) : Prop :=
  ∀ x : Block a, decryptWith bf' tf' a (encryptWith bf tf a x) = x

/-- R234, R235, with the functions of the other direction free: a decrypt step has no E, an encrypt step no D. -/
theorem chain_dec_chain_enc {n : Nat} {e d e' d' : Vector Byte n → Vector Byte n} (h : ∀ x, d' (e x) = x) (mode : Mode)
    (c x : Vector Byte n) :
    chain e' d' mode .dec c (chain e d mode .enc c x).1 = (x, (chain e d mode .enc c x).2) := by
  cases mode <;> simp [chain, h]

/-- R239: what the host's loop encrypts, its loop in a decrypt session with the same chaining value decrypts, whatever
follows, and the two sessions end with one chaining value. -/
theorem runBlocks_roundTrip (n : Nat) (hs : OpenSession bf tf a .enc mode c s) {m : List Byte}
    (hm : blockSize a * n ≤ m.length) :
    ∃ t out c', runBlocks (blockSize a) n m s = .ok (t, out) ∧ OpenSession bf tf a .enc mode c' t ∧
      out.length = blockSize a * n ∧
      ∀ (bf' : BFSchedule) (tf' : TFSchedule) (u : State) (rest : List Byte), Undoes a bf' tf' bf tf →
        OpenSession bf' tf' a .dec mode c u →
        ∃ v, runBlocks (blockSize a) n (out ++ rest) u = .ok (v, m.take (blockSize a * n)) ∧
          OpenSession bf' tf' a .dec mode c' v := by
  induction n generalizing c s m with
  | zero => exact ⟨s, [], c, rfl, hs, rfl, fun _ _ u _ _ hu => ⟨u, by simp [runBlocks], hu⟩⟩
  | succ n ih =>
    rw [Nat.mul_succ] at hm
    have hfirst : blockSize a ≤ m.length := by omega
    obtain ⟨t₁, hrun, ht₁, hout₁⟩ := runBlock_openSession hs hfirst
    obtain ⟨t, out, c', hblocks, ht, hlen, hback⟩ := ih ht₁ (m := m.drop (blockSize a)) (by rw [List.length_drop]; omega)
    refine ⟨t, _ ++ out, c', by rw [runBlocks, hrun, sequence_bind_ok, hblocks, sequence_map_ok, hout₁], ht, ?_, ?_⟩
    · rw [List.length_append, Vector.length_toList, hlen, Nat.mul_succ, Nat.add_comm]
    · intro bf' tf' u rest hundo hu
      have hlong : ∀ y : Block a, blockSize a ≤ (y.toList ++ (out ++ rest)).length := fun y => by simp
      obtain ⟨v₁, hrun', hv₁, hout₁'⟩ := runBlock_openSession hu (hlong _)
      rw [firstBlock_append, chain_dec_chain_enc hundo] at hv₁ hout₁'
      obtain ⟨v, hblocks', hv⟩ := hback bf' tf' v₁ rest hundo hv₁
      refine ⟨v, ?_, hv⟩
      have hdrop : ∀ y : Block a, (y.toList ++ (out ++ rest)).drop (blockSize a) = out ++ rest := fun y =>
        List.drop_left' (by simp)
      rw [List.append_assoc, runBlocks, hrun', sequence_bind_ok, hdrop, hblocks', sequence_map_ok, hout₁',
        firstBlock_toList hfirst, Nat.mul_succ, Nat.add_comm, List.take_add]

/-! ### The end of a message (R324, R325) -/

/-- R324: LDBLK of the last bytes, RUN FINAL and STBLK encrypt the padded block. -/
theorem runFinal_encrypts (hs : OpenSession bf tf a .enc mode c s) {m : List Byte} (hm : m.length < blockSize a) :
    ∃ t, hostRun (.final m.length) (ldBlk m s) = .ok t ∧ t.busy = false ∧ (stBlk t).take (blockSize a) =
      (chain (encryptWith bf tf a) (decryptWith bf tf a) mode .enc c
        (padBlock a m.length (firstBlock a m))).1.toList := by
  have hle := blockSize_le a
  obtain ⟨hbusy, hvalid, hdir, halg, hstep, hin⟩ := hs.accepted_ldBlk hm.le (encode (.final m.length))
  have hpad : padBlock a m.length (inputBlock a (latchCommand (encode (.final m.length)) (ldBlk m s))) =
      padBlock a m.length (firstBlock a m) := by
    apply Vector.ext
    intro i hi
    rw [padBlock_getElem, padBlock_getElem]
    split
    · next him => simp [hin i him, firstBlock, him]
    · rfl
  have hex := exec_final_enc hvalid hdir halg hm
  rw [hpad, hstep] at hex
  have hdec : decode (encode (.final m.length)) = .ok (.final m.length) :=
    Proofs.decodeOfEncode _ (decide_eq_true (by omega))
  exact ⟨_, hostRun_complete hbusy hdec hex, rfl, stBlk_take_blockSize rfl⟩

/-- R47: RESULT after a successful completion. -/
theorem regRead_result_complete {n : Nat} (hn : n < 32) (s : State) :
    (regRead (regAt 0x018) (complete n s)).toNat = n := by
  rw [regAt_result, regRead, resultWord, complete_nout, BitVec.toNat_setWidth, BitVec.toNat_ofNat]
  omega

/-- R325: LDBLK of a block that decrypts to a padded one, RUN FINAL, and STBLK[0..RESULT.NOUT-1]: the bytes before the
pad. -/
theorem runFinal_decrypts (hs : OpenSession bf tf a .dec mode c s) {n : Nat} (hn : n < blockSize a) {z x : Block a}
    (hz : (chain (encryptWith bf tf a) (decryptWith bf tf a) mode .dec c z).1 = padBlock a n x) :
    ∃ t, hostRun (.final 0) (ldBlk z.toList s) = .ok t ∧
      (stBlk t).take (regRead (regAt 0x018) t).toNat = x.toList.take n := by
  have hle := blockSize_le a
  obtain ⟨hbusy, hvalid, hdir, halg, hstep, hin⟩ :=
    hs.accepted_ldBlk (Vector.length_toList (xs := z)).le (encode (.final 0))
  have hblock : inputBlock a (latchCommand (encode (.final 0)) (ldBlk z.toList s)) = z := by
    apply Vector.ext
    intro i hi
    exact (hin i (by rwa [Vector.length_toList])).trans (Vector.getElem_toList _)
  have hex := exec_final_dec_ok hvalid hdir halg (by rw [hblock, hstep, hz]) (padValid_padBlock a hn x)
  rw [padCount_padBlock a n hn, Nat.sub_sub_self hn.le] at hex
  refine ⟨_, hostRun_complete hbusy (by decide) hex, ?_⟩
  rw [regRead_result_complete (by omega), stBlk_eq]
  exact messagePart_padBlock_take a hn x

/-- R239: what the host's FINAL encrypts, FINAL in a decrypt session with the same chaining value gives back, without
its pad. -/
theorem runFinal_roundTrip (hs : OpenSession bf tf a .enc mode c s) {m : List Byte} (hm : m.length < blockSize a) :
    ∃ (t : State) (z : Block a), hostRun (.final m.length) (ldBlk m s) = .ok t ∧ t.busy = false ∧
      (stBlk t).take (blockSize a) = z.toList ∧
      ∀ (bf' : BFSchedule) (tf' : TFSchedule) (u : State), Undoes a bf' tf' bf tf →
        OpenSession bf' tf' a .dec mode c u →
        ∃ v, hostRun (.final 0) (ldBlk z.toList u) = .ok v ∧
          (stBlk v).take (regRead (regAt 0x018) v).toNat = m := by
  obtain ⟨t, hrun, hbusy, hout⟩ := runFinal_encrypts hs hm
  refine ⟨t, _, hrun, hbusy, hout, fun bf' tf' u hundo hu => ?_⟩
  obtain ⟨v, hrun', hout'⟩ := runFinal_decrypts hu hm (congrArg Prod.fst (chain_dec_chain_enc hundo mode c _))
  exact ⟨v, hrun', hout'.trans (firstBlock_take hm.le)⟩

end

/-! ### The opening of a message (R324, R325) -/

/-- R229: the chaining value with which a message begins. -/
def openingValue (a : Alg) (mode : Mode) (iv : List Byte) : Block a :=
  takeBytes (blockSize a) (blockSize_le a) (match mode with
    | .cbc => Vector.ofFn fun i => iv.getD i.val 0
    | .ecb => zeroBytes 16)

/-- R140, R184: a state holds the schedule of a key for its algorithm. -/
def HoldsKey (a : Alg) (kb : List Byte) (s : State) : Prop :=
  match a with
  | .blowfish => s.bf = bfDeriveSchedule kb
  | .twofish => s.tf = tfDeriveSchedule kb

theorem holdsKey_deriveSchedule (a : Alg) (kb : List Byte) (s : State) : HoldsKey a kb (deriveSchedule a kb s) := by
  cases a <;> rfl

/-- R142, R187: two sessions with one key undo each other, whatever the other unit's schedule. -/
theorem HoldsKey.undoes {a : Alg} {kb : List Byte} {s u : State} (hs : HoldsKey a kb s) (hu : HoldsKey a kb u) :
    Undoes a u.bf u.tf s.bf s.tf := by
  intro x
  have hsame : encryptWith s.bf s.tf a x = encryptWith u.bf u.tf a x := by
    cases a with
    | blowfish => exact congrArg (fun b => bfEncryptBlock b x) (hs.trans hu.symm)
    | twofish => exact congrArg (fun t => tfEncryptBlock t x) (hs.trans hu.symm)
  rw [hsame, decryptWith_encryptWith]

/-- R324, R325: the opening is the run of KEYSCHED with the key loaded and, in CBC, the IV. -/
theorem openMessage_eq_hostRun (alg : Nat) (dir : Dir) (mode : Mode) (kb iv : List Byte) {s : State}
    (hs : s.busy = false) : ∃ b : Vector Byte 16, openMessage alg dir mode kb iv s =
        hostRun (.keysched alg dir mode kb.length) (ldKey kb { s with ivbuf := b }) ∧
      (mode = .cbc → b = Vector.ofFn fun i => iv.getD i.val 0) := by
  cases mode with
  | ecb => exact ⟨s.ivbuf, rfl, nofun⟩
  | cbc => exact ⟨_, by rw [openMessage, ldIv_idle iv s hs], fun _ => rfl⟩

/-- R324, R325: with a legal key the opening of a message opens the session with the key's schedule. -/
theorem openMessage_opens {alg : Nat} {kb : List Byte} (hk : KeyLegal alg kb.length) (dir : Dir) (mode : Mode)
    (iv : List Byte) {s : State} (hs : s.busy = false) :
    ∃ t, openMessage alg dir mode kb iv s = .ok t ∧ HoldsKey (algOf alg) kb t ∧
      OpenSession t.bf t.tf (algOf alg) dir mode (openingValue (algOf alg) mode iv) t := by
  obtain ⟨hlen, hwf⟩ : kb.length ≤ 56 ∧ (Instr.keysched alg dir mode kb.length).wf = true := by
    simp only [Instr.wf, Bool.and_eq_true, decide_eq_true_eq]
    unfold KeyLegal at hk
    omega
  obtain ⟨b, hopen, hb⟩ := openMessage_eq_hostRun alg dir mode kb iv hs
  obtain ⟨k, hload, hkey⟩ := ldKey_idle kb { s with ivbuf := b } hs hlen
  have hbytes : keyBytes (latchCommand (encode (.keysched alg dir mode kb.length))
      { s with ivbuf := b, keybuf := k }) kb.length = kb := by
    apply List.ext_getElem
    · exact keyBytes_length hlen _
    · intro i _ hi
      simpa [keyBytes] using hkey i hi
  have hex := exec_keysched_ok hk dir mode
    (latchCommand (encode (.keysched alg dir mode kb.length)) { s with ivbuf := b, keybuf := k })
  have hrun := hostRun_complete (s := { s with ivbuf := b, keybuf := k }) hs (Proofs.decodeOfEncode _ hwf) hex
  rw [hbytes] at hrun
  refine ⟨_, (hopen.trans (congrArg _ hload)).trans hrun, holdsKey_deriveSchedule (algOf alg) kb _,
    rfl, rfl, rfl, rfl, rfl, rfl, rfl, ?_⟩
  cases mode with
  | ecb => rfl
  | cbc => simp [chainingValue, openingValue, hb rfl]

/-! ### The whole message (R239, R267) -/

/-- R239, R267: encryption of a message gives its full blocks and one more, and decryption takes them back. -/
theorem message_roundTrip {alg : Nat} {kb : List Byte} (hk : KeyLegal alg kb.length) (mode : Mode) (iv m : List Byte)
    {s : State} (hs : s.busy = false) :
    ∃ t c, encryptMessage alg mode kb iv m s = .ok (t, c) ∧ t.busy = false ∧
      c.length = blockSize (algOf alg) * (m.length / blockSize (algOf alg) + 1) ∧
      ∀ u : State, u.busy = false → ∃ v, decryptMessage alg mode kb iv c u = .ok (v, m) := by
  have hpos := blockSize_pos (algOf alg)
  have htail : (m.drop (blockSize (algOf alg) * (m.length / blockSize (algOf alg)))).length =
      m.length % blockSize (algOf alg) := by rw [List.length_drop, Nat.mod_eq_sub]
  obtain ⟨s₁, hopen, hkey, hs₁⟩ := openMessage_opens hk .enc mode iv hs
  obtain ⟨s₂, out, c, hblocks, hs₂, hlen, hback⟩ := runBlocks_roundTrip _ hs₁ (m := m) (Nat.mul_div_le _ _)
  obtain ⟨t, z, hfinal, hbusy, hlast, hback'⟩ := runFinal_roundTrip hs₂ (htail.trans_lt (Nat.mod_lt _ hpos))
  rw [htail] at hfinal
  have hclen : (out ++ z.toList).length = blockSize (algOf alg) * (m.length / blockSize (algOf alg) + 1) := by
    rw [List.length_append, hlen, Vector.length_toList, Nat.mul_succ]
  refine ⟨t, out ++ z.toList, ?_, hbusy, hclen, fun u hu => ?_⟩
  · simp only [encryptMessage, hopen, sequence_bind_ok, hblocks, hfinal, sequence_map_ok, hlast]
  · obtain ⟨u₁, hopen', hkey', hu₁⟩ := openMessage_opens hk .dec mode iv hu
    obtain ⟨u₂, hblocks', hu₂⟩ := hback u₁.bf u₁.tf u₁ z.toList (hkey.undoes hkey') hu₁
    obtain ⟨v, hfinal', hlast'⟩ := hback' u₁.bf u₁.tf u₂ (hkey.undoes hkey') hu₂
    have hlong : ¬ ((out ++ z.toList).length = 0 ∨ (out ++ z.toList).length % blockSize (algOf alg) ≠ 0) := by
      rw [hclen, Nat.mul_mod_right, Nat.mul_succ]
      omega
    have hfull : (out ++ z.toList).length / blockSize (algOf alg) - 1 = m.length / blockSize (algOf alg) := by
      rw [hclen, Nat.mul_div_cancel_left _ hpos, Nat.add_sub_cancel]
    refine ⟨v, ?_⟩
    simp only [decryptMessage, if_neg hlong, hfull, hopen', sequence_bind_ok, hblocks', List.drop_left' hlen, hfinal',
      sequence_map_ok, hlast', List.take_append_drop]

end Sys2Proof.Machine

namespace Sys2Proof.Proofs

open Sys2Proof.Machine

/-- Settles O9, by induction on the agenda: each step takes an event off it, and the step after the last one leaves an
idle engine. -/
theorem engineComesToRest : Obligations.EngineComesToRest := by
  intro s
  induction hn : s.agenda.length generalizing s with
  | zero =>
    have ha : s.agenda = [] := List.length_eq_zero_iff.mp hn
    obtain ⟨t, ht⟩ := everyStepAnswersNext s
    exact ⟨t, core_run_succ ht 0, (step_agenda ht).trans (by rw [ha, List.tail_nil]), step_busy_of_empty ha ht⟩
  | succ n ih =>
    obtain ⟨t, ht⟩ := everyStepAnswersNext s
    rw [core_run_succ ht]
    exact ih t (by rw [step_agenda ht, List.length_tail, hn, Nat.add_sub_cancel])

/-- Settles O12: the words with OP 0 are those below 16 without a must-be-zero bit, so only the word 0. -/
theorem nopCompletes : Obligations.NopCompletes := by
  refine ⟨exec_nop, fun w hop hw => ?_⟩
  have hop0 : opField w = 0 := (opField_eq w).trans hop
  refine decode_badField (by omega) (fun hmbz => hw (BitVec.eq_of_toNat_eq ?_))
  rw [hop0] at hmbz
  have hlt := (mask_op_iff w).mp hmbz
  exact (Nat.mod_eq_of_lt hlt).symm.trans hop

/-- Settles O13, from the fields that the close leaves. -/
theorem zeroizeClearsEveryBuffer : Obligations.ZeroizeClearsEveryBuffer := by
  intro s
  rw [exec_zeroize, closeIfOpen_eq]
  rfl

/-- Settles O14: the fields of the entry, the derivation of the one schedule, and CV by the mode. -/
theorem keyschedOpensSession : Obligations.KeyschedOpensSession := by
  intro alg keylen dir mode s hk
  rw [exec_keysched_ok hk, keyschedEntry_eq, closeIfOpen_eq]
  rcases hk with ⟨rfl, -⟩ | ⟨rfl, -⟩ <;> cases mode <;> rfl

/-- Settles O15: the error completion over the entry, which has closed the session already. -/
theorem keyschedRejectsBadKeys : Obligations.KeyschedRejectsBadKeys := by
  intro alg keylen dir mode s code h
  obtain ⟨e, he, rfl, hdetail⟩ := keyschedError_of_code h
  rw [exec_keysched_error he, errorCompletion_eq, keyschedEntry_eq, closeIfOpen_eq, hdetail]
  rfl

/-- Settles O18: both answer the error completion, which leaves what only an open session has. -/
theorem blockCommandsNeedASession : Obligations.BlockCommandsNeedASession := by
  intro s i hs hi
  have he : exec i s = .next (errorCompletion .noSession s) := by
    rcases hi with rfl | ⟨n, rfl⟩
    · exact exec_block_closed hs
    · exact exec_final_closed n hs
  rw [he, errorCompletion, closeIfOpen_of_closed hs]
  rfl

/-- Settles O51: a CMD write latches its word unless the engine is busy. -/
theorem cmdWriteIssues : Obligations.CmdWriteIssues := by
  intro v s
  rw [windowAccess_write rfl, regAt_cmd, regWrite, unlessBusy]
  rfl

/-- Settles O59: a completion with an error is the error completion. -/
theorem errorsCloseTheSession : Obligations.ErrorsCloseTheSession := by
  intro s t hb ha h herr
  rw [step_completionPoint hb ha] at h
  rcases runCommand_completes s.lcmd (afterEvent s) with ⟨n, u, he, -⟩ | ⟨e, u, he, -⟩ <;> cases he.symm.trans h
  · exact absurd (complete_err n u) herr
  · exact ⟨errorCompletion_sessValid e u, rfl, rfl, rfl, rfl, rfl⟩

/-- Settles O16: the block is the first part of DINBUF, and CV keeps its other part. -/
theorem blockInBlowfishSession : Obligations.BlockInBlowfishSession := by
  intro s hs ha x chain0 y chain1
  have hx : modeBlock .blowfish s (inputBlock .blowfish s) = (y, chain1) := by
    simp only [modeBlock, chain, xorBytes_eq_ofFn, y, chain1]
    cases s.sMode <;> cases s.sDir <;> rfl
  rw [exec_block_modeBlock hs ha hx, setOutput, overlayBytes_zeroBytes, setChaining, overlayBytes_eq_ofFn]
  rfl

/-- Settles O17: block and chaining value are whole buffers. -/
theorem blockInTwofishSession : Obligations.BlockInTwofishSession := by
  intro s hs ha y chain1
  have hin : inputBlock .twofish s = s.dinbuf := takeBytes_self _ _
  have hcv : chainingValue .twofish s = s.cv := takeBytes_self _ _
  have hx : modeBlock .twofish s (inputBlock .twofish s) = (y, chain1) := by
    simp only [modeBlock, hin, hcv, chain, xorBytes_eq_ofFn, y, chain1]
    cases s.sMode <;> cases s.sDir <;> rfl
  rw [exec_block_modeBlock hs ha hx, setOutput, overlayBytes_self, setChaining, overlayBytes_self]
  rfl

/-- Settles O34: the decrypt session's block step takes the encrypted block back, and both leave one chaining value. -/
theorem blockRoundTrip : Obligations.BlockRoundTrip := by
  intro s s' hs hs' hd hd' ha hm hbf htf hcv
  rcases hx : modeBlock s.sAlg s (inputBlock s.sAlg s) with ⟨y, c⟩
  refine ⟨_, exec_block_modeBlock hs rfl hx, fun hdin => ?_⟩
  have hin : inputBlock s.sAlg s' = y := by
    rw [inputBlock, hdin]
    exact takeBytes_overlayBytes _ _ _
  have hx' : modeBlock s.sAlg s' (inputBlock s.sAlg s') = (inputBlock s.sAlg s, c) := by
    have hundo := chain_dec_enc (decryptWith_encryptWith s.bf s.tf s.sAlg) s.sMode (chainingValue s.sAlg s)
      (inputBlock s.sAlg s)
    rw [modeBlock, hd] at hx
    rw [hx] at hundo
    rw [hin, modeBlock, hd', hm, hbf, htf, chainingValue, hcv]
    exact hundo
  refine ⟨_, exec_block_modeBlock hs' ha hx', fun i hi => ?_, ?_⟩
  · simp [inputBlock, hi]
  · simp [hcv]

/-- Settles O37: in ECB the output is made of the schedules and the input block alone. -/
theorem ecbRepeatsBlocks : Obligations.EcbRepeatsBlocks := by
  intro s s' hs hs' hm hm' ha hd hbf htf hdin
  have hin : inputBlock s.sAlg s' = inputBlock s.sAlg s := takeBytes_congr _ hdin
  have hy : (modeBlock s.sAlg s' (inputBlock s.sAlg s')).1 = (modeBlock s.sAlg s (inputBlock s.sAlg s)).1 := by
    rw [hin, modeBlock, modeBlock, hbf, htf, hd, hm, hm']
    cases s.sDir <;> rfl
  refine ⟨_, _, exec_block_open hs rfl, exec_block_open hs' ha, ?_⟩
  rw [complete_doutbuf, complete_doutbuf, setOutput_doutbuf, setOutput_doutbuf, hy]

/-- Settles O36: the round trip of a message, and the host's own length check. -/
theorem messageRoundTrip : Obligations.MessageRoundTrip := by
  refine ⟨fun alg mode kb iv m s hk _ hs => message_roundTrip hk mode iv m hs, fun alg mode kb iv c u h => ?_⟩
  refine decryptMessage_badLength (h.imp_right fun hmod => ?_) mode kb iv u
  cases alg <;> exact hmod

end Sys2Proof.Proofs

/-! PROOFS. FINAL: the pad that it writes and checks, the block that it encrypts or decrypts, and the session that it
closes in every case. -/

namespace Sys2Proof.Machine

/-! ### The pad check (R260, R264) -/

/-- R264: a block that passes the pad check is the padding of its own first bytes. -/
theorem padBlock_of_padValid {a : Alg} {y : Block a} (h : padValid a y = true) :
    padBlock a (blockSize a - padCount a y) y = y := by
  obtain ⟨-, hle, hpad⟩ := (padValid_iff a y).mp h
  apply Vector.ext
  intro i hi
  rw [padBlock_getElem, Nat.sub_sub_self hle]
  split
  · rfl
  · next hge => rw [← hpad ⟨i, hi⟩ (Nat.le_of_not_lt hge), BitVec.ofNat_toNat, BitVec.setWidth_eq, Fin.getElem_fin]

/-! ### The block of FINAL (R262, R263) -/

/-- R260, R262: the padded block, byte by byte of DINBUF. -/
theorem padBlock_inputBlock_eq_ofFn (a : Alg) (n : Nat) (s : State) : padBlock a n (inputBlock a s) =
    Vector.ofFn fun i => if i.val < n then s.dinbuf[i.val]'(Nat.lt_of_lt_of_le i.isLt (blockSize_le a))
      else BitVec.ofNat 8 (blockSize a - n) := by
  apply Vector.ext
  intro i hi
  simp [inputBlock]

/-- R263: the message part of the padded block is the bytes of DINBUF before the pad, then zeros. -/
theorem messagePart_padBlock_inputBlock_getElem (a : Alg) {n : Nat} (hn : n < blockSize a) (s : State) (i : Nat)
    (hi : i < 16) : (messagePart a n (padBlock a n (inputBlock a s)))[i] = if i < n then s.dinbuf[i] else 0 := by
  rw [messagePart_getElem]
  by_cases hin : i < n
  · simp [hin, hin.trans hn, inputBlock]
  · simp [hin]

/-- R234, R235: the XOR of CBC, byte by byte of CV. -/
theorem xorBytes_chainingValue_eq_ofFn (a : Alg) (x : Block a) (s : State) : xorBytes x (chainingValue a s) =
    Vector.ofFn fun i => x[i] ^^^ s.cv[i.val]'(Nat.lt_of_lt_of_le i.isLt (blockSize_le a)) := by
  apply Vector.ext
  intro i hi
  simp [chainingValue]

/-- R234, R235: the block step of a decrypt session takes back that of an encrypt session with the same parameters. -/
theorem modeBlock_dec_modeBlock_enc {s s' : State} (hd : s.sDir = .enc) (hd' : s'.sDir = .dec)
    (hm : s'.sMode = s.sMode) (hbf : s'.bf = s.bf) (htf : s'.tf = s.tf) (hcv : s'.cv = s.cv) (a : Alg) (x : Block a) :
    modeBlock a s' (modeBlock a s x).1 = (x, (modeBlock a s x).2) := by
  rw [modeBlock, modeBlock, hd, hd', hm, hbf, htf, chainingValue, hcv]
  exact chain_dec_enc (decryptWith_encryptWith s.bf s.tf a) s.sMode (chainingValue a s) x

/-! ### The end of the session (R266, R286) -/

/-- R222: a session's close forgets its chaining value. -/
theorem closeSession_setChaining (a : Alg) (c : Block a) (s : State) :
    closeSession (setChaining a c s) = closeSession s := by
  simp only [closeSession, setChaining]

/-- R222, R266: a session's close keeps DOUT, whatever the last chaining value. -/
theorem closeSession_setChaining_doutbuf (a : Alg) (c : Block a) (d : Vector Byte 16) (s : State) :
    closeSession { setChaining a c s with doutbuf := d } = { closeSession s with doutbuf := d } := by
  simp only [closeSession, setChaining]

/-- R286, in an open session: the error completion closes it. -/
theorem errorCompletion_of_open {s : State} (hs : s.sessValid = true) (e : CmdError) : errorCompletion e s =
    { closeSession s with
      doutbuf := zeroBytes 16, nout := 0, err := errCode e, detail := errDetail e, errf := true, busy := false,
      done := true } := by
  rw [errorCompletion, closeIfOpen_of_open hs]

end Sys2Proof.Machine

namespace Sys2Proof.Proofs

open Sys2Proof.Machine

/-- Settles O21: each direction has its own count check, and both raise in an open session. -/
theorem finalRejectsBadCounts : Obligations.FinalRejectsBadCounts := by
  intro n s hs h
  rcases h with ⟨hd, hn⟩ | ⟨hd, hn⟩
  · rw [exec_final_enc_count hs hd hn, errorCompletion_of_open hs, hd]
    rfl
  · rw [exec_final_dec_count hs hd hn, errorCompletion_of_open hs, hd]
    rfl

/-- Settles O33: an accepted block is the padding of itself for the count that its last byte leaves. -/
theorem padCheckAcceptsPaddedBlocks : Obligations.PadCheckAcceptsPaddedBlocks := by
  intro a y
  constructor
  · intro h
    obtain ⟨hpos, -⟩ := (padValid_iff a y).mp h
    exact ⟨_, Nat.sub_lt (blockSize_pos a) hpos, (padBlock_of_padValid h).symm⟩
  · rintro ⟨n, hn, hy⟩
    rw [hy]
    exact padValid_padBlock a hn y

/-- Settles O19: the padded block and its block step, in either mode, and the close. -/
theorem finalPadsAndEncrypts : Obligations.FinalPadsAndEncrypts := by
  intro n s hs hd hn x y
  have hx : padBlock s.sAlg n (inputBlock s.sAlg s) = x := padBlock_inputBlock_eq_ofFn s.sAlg n s
  have hy : (modeBlock s.sAlg s x).1 = y := by
    cases hm : s.sMode with
    | ecb => simp only [modeBlock_ecb_enc hm hd, y, hm]
    | cbc => simp only [modeBlock_cbc_enc hm hd, xorBytes_chainingValue_eq_ofFn, y, hm]
  rw [exec_final_enc hs hd rfl hn, hx, hy, setOutput, overlayBytes_zeroBytes, closeSession_setChaining_doutbuf]
  rfl

/-- Settles O20: the decrypted block, in either mode, by the pad check; an invalid pad raises in an open session. -/
theorem finalDecryptsAndChecksPad : Obligations.FinalDecryptsAndChecksPad := by
  intro s hs hd x d y p valid closed
  have hx : inputBlock s.sAlg s = x := rfl
  have hy : (modeBlock s.sAlg s (inputBlock s.sAlg s)).1 = y := by
    cases hm : s.sMode with
    | ecb => simp only [hx, modeBlock_ecb_dec hm hd, y, d, hm]
    | cbc => simp only [hx, modeBlock_cbc_dec hm hd, xorBytes_chainingValue_eq_ofFn, y, d, hm]
  have hvalid : padValid s.sAlg y = true ↔ valid := padValid_iff s.sAlg y
  constructor
  · intro hv
    rw [exec_final_dec_ok hs hd rfl hy (hvalid.mpr hv), closeSession_setChaining_doutbuf]
    rfl
  · intro hv
    rw [exec_final_dec_bad hs hd rfl hy (Bool.eq_false_iff.mpr (hv ∘ hvalid.mp)),
      errorCompletion_of_open ((setChaining_sessValid s.sAlg _ s).trans hs), closeSession_setChaining]
    rfl

/-- Settles O35: the decrypt session's block step gives the padded block back, which passes the check. -/
theorem finalRoundTrip : Obligations.FinalRoundTrip := by
  intro n s s' hs hs' hd hd' ha hm hbf htf hcv hn
  have hle := blockSize_le s.sAlg
  refine ⟨_, exec_final_enc hs hd rfl hn, fun hdin => ?_⟩
  have hin : inputBlock s.sAlg s' = (modeBlock s.sAlg s (padBlock s.sAlg n (inputBlock s.sAlg s))).1 := by
    rw [inputBlock, hdin]
    exact takeBytes_overlayBytes _ _ _
  have hout : (modeBlock s.sAlg s' (inputBlock s.sAlg s')).1 = padBlock s.sAlg n (inputBlock s.sAlg s) := by
    rw [hin, modeBlock_dec_modeBlock_enc hd hd' hm hbf htf hcv]
  have hex := exec_final_dec_ok hs' hd' ha hout (padValid_padBlock s.sAlg hn _)
  rw [padCount_padBlock s.sAlg n hn, Nat.sub_sub_self hn.le] at hex
  refine ⟨_, hex, rfl, ?_, fun i => ?_⟩
  · rw [complete_nout, BitVec.toNat_ofNat]
    omega
  · exact messagePart_padBlock_inputBlock_getElem s.sAlg hn s i i.isLt

end Sys2Proof.Proofs

/-! PROOFS. The interrupt output: its two conditions, and what each write of the host and a reset leave of them. -/

namespace Sys2Proof.Machine

/-! ### The two conditions of IRQ (R289) -/

theorem irq_iff (s : State) : irq s = true ↔ (s.done = true ∧ s.ieDone = true) ∨ (s.errf = true ∧ s.ieErr = true) := by
  simp only [irq, Bool.or_eq_true, Bool.and_eq_true]

/-- R289, R290: IRQ is low when neither asserting bit is set under its enable. -/
theorem irq_eq_false_iff (s : State) :
    irq s = false ↔ (s.done = true → s.ieDone = false) ∧ (s.errf = true → s.ieErr = false) := by
  simp only [irq, Bool.or_eq_false_iff, Bool.and_eq_false_imp]

/-! ### The ways to move IRQ (R290) -/

/-- R290, R38: a STATUS write that clears each asserting bit deasserts IRQ. -/
theorem irq_clearStatus_eq_false {v : Word} {s : State} (hdone : s.done = true → s.ieDone = true → v.getLsbD 1 = true)
    (herrf : s.errf = true → s.ieErr = true → v.getLsbD 2 = true) : irq (clearStatus v s) = false := by
  have hclear {b e c : Bool} (h : b = true → e = true → c = true) (hleft : (b && !c) = true) : e = false := by
    obtain ⟨hb, hc⟩ : b = true ∧ c = false := by simpa using hleft
    exact Bool.eq_false_iff.mpr fun he => Bool.noConfusion (hc.symm.trans (h hb he))
  exact (irq_eq_false_iff _).mpr ⟨hclear hdone, hclear herrf⟩

/-- R290, R37: a CTRL write that clears the enable of each set bit deasserts IRQ. -/
theorem irq_writeCtrl_eq_false {v : Word} {s : State} (hdone : s.done = true → v.getLsbD 0 = false)
    (herrf : s.errf = true → v.getLsbD 1 = false) : irq (writeCtrl v s) = false :=
  (irq_eq_false_iff _).mpr ⟨hdone, herrf⟩

/-- R290, R223: the acceptance of a command clears DONE, which leaves the ERRF condition. -/
theorem irq_latchCommand (v : Word) (s : State) : irq (latchCommand v s) = (s.errf && s.ieErr) := by
  simp only [irq, latchCommand_done, latchCommand_errf, latchCommand_ieErr, Bool.false_and, Bool.false_or]

/-- R223: a CMD write to an idle engine is accepted. -/
theorem windowAccess_cmd_idle {s : State} (hs : s.busy = false) (v : Word) :
    windowAccess 0x010 4 (.write v) s = (latchCommand v s, .written) := by
  rw [windowAccess_write rfl, regAt_cmd, regWrite, unlessBusy_idle hs]

end Sys2Proof.Machine

namespace Sys2Proof.Proofs

open Sys2Proof.Machine

/-- Settles O52: the condition of IRQ, and then each of the ways of R290 by the state that it leaves. -/
theorem irqFollowsFlags : Obligations.IrqFollowsFlags := by
  intro s v
  refine ⟨irq_iff s, fun hdone herrf => ?status, fun hdone herrf => ?ctrl, fun hs => ?cmd, fun rest ha => ?reset⟩
  case status =>
    rw [windowAccess_write rfl, regAt_status]
    exact irq_clearStatus_eq_false hdone herrf
  case ctrl =>
    rw [windowAccess_write rfl, regAt_ctrl]
    exact irq_writeCtrl_eq_false hdone herrf
  case cmd => rw [windowAccess_cmd_idle hs, irq_latchCommand]
  case reset => exact ⟨_, step_resetPulse ha, rfl⟩

end Sys2Proof.Proofs

/-! PROOFS. Reset and hazards: what the host reads of a reset engine, and that no command but NOP leaves anything of the
old DOUT. -/

namespace Sys2Proof.Machine

/-! ### The output buffer is overwritten (R328) -/

/-- A state with another value of DOUTBUF. -/
def withDoutbuf (d : Vector Byte 16) (s : State) : State := { s with doutbuf := d }

theorem closeIfOpen_withDoutbuf (d : Vector Byte 16) (s : State) :
    closeIfOpen (withDoutbuf d s) = withDoutbuf d (closeIfOpen s) := by
  cases hs : s.sessValid with
  | false => rw [closeIfOpen_of_closed hs, closeIfOpen_of_closed (s := withDoutbuf d s) hs]
  | true =>
    rw [closeIfOpen_of_open hs, closeIfOpen_of_open (s := withDoutbuf d s) hs]
    rfl

/-- R226: KEYSCHED zeroes DOUT before its checks. -/
theorem keyschedEntry_withDoutbuf (d : Vector Byte 16) (s : State) :
    keyschedEntry (withDoutbuf d s) = keyschedEntry s :=
  congrArg (fun t : State => { t with doutbuf := zeroBytes 16 })
    (closeIfOpen_withDoutbuf d { s with keybuf := zeroBytes 56 })

/-- R286: the error completion zeroes DOUT. -/
theorem errorCompletion_withDoutbuf (e : CmdError) (d : Vector Byte 16) (s : State) :
    errorCompletion e (withDoutbuf d s) = errorCompletion e s := by
  rw [errorCompletion, closeIfOpen_withDoutbuf]
  rfl

/-- R237: ZEROIZE zeroes DOUT with the other buffers. -/
theorem exec_zeroize_withDoutbuf (d : Vector Byte 16) (s : State) :
    exec .zeroize (withDoutbuf d s) = exec .zeroize s := by
  rw [exec_zeroize, exec_zeroize, closeIfOpen_withDoutbuf]
  rfl

theorem exec_keysched_withDoutbuf (alg : Nat) (dir : Dir) (mode : Mode) (keylen : Nat) (d : Vector Byte 16)
    (s : State) :
    exec (.keysched alg dir mode keylen) (withDoutbuf d s) = exec (.keysched alg dir mode keylen) s := by
  rcases exec_keysched_cases alg dir mode keylen s with ⟨e, he, h⟩ | ⟨hk, h⟩
  · rw [h, exec_keysched_error he, keyschedEntry_withDoutbuf]
  · rw [h, exec_keysched_ok hk, keyschedEntry_withDoutbuf]
    rfl

/-- R236: BLOCK writes its output block and 0x00 after it. -/
theorem exec_block_withDoutbuf (d : Vector Byte 16) (s : State) :
    exec .block (withDoutbuf d s) = exec .block s := by
  rcases exec_block_cases s with ⟨hs, h⟩ | ⟨hs, y, c, hx, h⟩
  · rw [h, exec_block_closed (s := withDoutbuf d s) hs, errorCompletion_withDoutbuf]
  · obtain ⟨rfl, rfl⟩ := Prod.ext_iff.mp hx
    exact (exec_block_open (s := withDoutbuf d s) hs rfl).trans h.symm

/-- R262, R263: FINAL writes the padded block's output or the message part, filled with 0x00, or fails. -/
theorem exec_final_withDoutbuf (n : Nat) (d : Vector Byte 16) (s : State) :
    exec (.final n) (withDoutbuf d s) = exec (.final n) s := by
  rcases exec_final_cases n s with ⟨hs, h⟩ | ⟨hs, hd, hn, h⟩ | ⟨hs, hd, hn, y, c, hx, h⟩ | ⟨hs, hd, hn, h⟩ |
    ⟨hs, hd, rfl, y, c, hx, ⟨hp, h⟩ | ⟨hp, h⟩⟩
  · rw [h, exec_final_closed n (s := withDoutbuf d s) hs, errorCompletion_withDoutbuf]
  · rw [h, exec_final_enc_count (s := withDoutbuf d s) hs hd hn, errorCompletion_withDoutbuf]
  · obtain ⟨rfl, rfl⟩ := Prod.ext_iff.mp hx
    exact (exec_final_enc (s := withDoutbuf d s) hs hd rfl hn).trans h.symm
  · rw [h, exec_final_dec_count (s := withDoutbuf d s) hs hd hn, errorCompletion_withDoutbuf]
  · obtain ⟨rfl, rfl⟩ := Prod.ext_iff.mp hx
    exact (exec_final_dec_ok (s := withDoutbuf d s) hs hd rfl rfl hp).trans h.symm
  · obtain ⟨rfl, rfl⟩ := Prod.ext_iff.mp hx
    rw [h, ← errorCompletion_withDoutbuf .invalidPadding d]
    exact exec_final_dec_bad (s := withDoutbuf d s) hs hd rfl rfl hp

/-! ### The reads after reset (R321) -/

@[simp] theorem readLane_zeroBytes (m : Nat) {n : Nat} (h : 4 * n + 3 < m) : readLane (zeroBytes m) n = 0 := by
  rw [readLane_eq _ _ h]
  simp only [zeroBytes_getElem]
  rfl

end Sys2Proof.Machine

namespace Sys2Proof.Proofs

open Sys2Proof.Machine

/-- Settles O23: command by command, each with its own overwrite of DOUT; an error overwrites it for all of them. -/
theorem outputIsRewritten : Obligations.OutputIsRewritten := by
  intro i s d hi
  cases i with
  | nop => exact absurd rfl hi
  | keysched alg dir mode keylen => exact exec_keysched_withDoutbuf alg dir mode keylen d s
  | block => exact exec_block_withDoutbuf d s
  | final n => exact exec_final_withDoutbuf n d s
  | zeroize => exact exec_zeroize_withDoutbuf d s

/-- Settles O11: SESSION by its closed session, the buffers lane by lane, and the flags and fields are 0. -/
theorem resetReads : Obligations.ResetReads := by
  have hlane (n : Fin 4) : readLane (zeroBytes 16) n.val = 0 := readLane_zeroBytes 16 (by omega)
  exact ⟨rfl, rfl, rfl, rfl, sessionWord_closed rfl, rfl, rfl, fun _ => rfl, hlane, hlane, hlane, rfl⟩

end Sys2Proof.Proofs
